-- ==== Sys2Proof/Word.lean ====
section
/-! DEFINITION. The words of MSTD: host registers, the host word HT35, bytes of TEXT, character frames and data values. -/

namespace Sys2Proof

/-- One host register, REGW = 16 bits (00_scope.md R6, 10_state.md R21). -/
abbrev Reg := BitVec 16

/-- One host transaction (30_encoding.md R80). -/
abbrev Ht35 := BitVec 35

/-- The code of an engine stage, STATUS[2:0] (30_encoding.md R90). -/
abbrev StageCode := BitVec 3

/-- One byte of TEXT (20_memory.md R60). -/
abbrev Byte := BitVec 8

/-- A character frame, zero extended to the widest W, 7 bits (30_encoding.md R84, 44_character_framer.md R140). -/
abbrev Frame := BitVec 7

/-- A data value, zero extended to the widest D, 6 bits (44_character_framer.md R141); also the width of ACC (R42). -/
abbrev DataVal := BitVec 6

end Sys2Proof
end

