-- ==== Sys2Proof/Config.lean ====
section
/-! DEFINITION. What an implementation of MSTD fixes, and the values the spec leaves free. An opaque constant here has no
body: nothing can be proved of its value beyond its type. -/

namespace Sys2Proof

/-- CAP - 1. CAP is OPEN, "a model argument with 1 <= CAP <= 65535" (00_scope.md R6, 92_eei_decisions.md D2). Log 1. -/
opaque Config.capMinusOne : Fin 65535

/-- CAP, the capacity of RAW and WORK in bits, of the machine that State.reset describes (R6). Log 1. -/
def Config.cap : Nat := Config.capMinusOne.val + 1

/-- MSTD_BASE, OPEN: where the block sits in a host system's address space (20_memory.md R71). No rule reads it. Log 13. -/
opaque Config.mstdBase : Nat

/-- LRC_INCLUDE_SS = 0: whether the start sentinel's data bits enter the LRC (00_scope.md R6, 45_lrc_engine.md R165). -/
def Config.lrcIncludeSs : Bool := false

/-- LRC_INCLUDE_ES = 0: whether the end sentinel's data bits enter the LRC (00_scope.md R6, 45_lrc_engine.md R165). -/
def Config.lrcIncludeEs : Bool := false

/-- The k-th free value a host read takes (00_scope.md R11 `draw`, 70_reset_and_hazards.md R237). Log 3. -/
opaque Config.freeValue : Nat → BitVec 16

/-- What RAW[i] holds after the r-th reset until it is written: drawn (10_state.md R39, R44). Log 2. -/
opaque Config.rawAtReset : Nat → Nat → Bool

/-- What WORK[i] holds after the r-th reset until it is written: drawn (10_state.md R40, R44). Log 2. -/
opaque Config.workAtReset : Nat → Nat → Bool

/-- What TEXT[n] holds after the r-th reset until it is written: drawn (10_state.md R41, R44). Log 2. -/
opaque Config.textAtReset : Nat → Nat → Byte

end Sys2Proof
end

