-- ==== Sys2Proof/Syntax.lean ====
section
/-! DEFINITION. The instructions of MSTD: one constructor per row of spec/opcode_table.json, the fifteen host transactions
(format HT35) and the five engine stages (format STAGE). MSTD has no instruction set of its own: "its 'instructions' are the
host transactions and the five engine stages" (92_eei_decisions.md D1). -/

namespace Sys2Proof

/-- One row of the opcode table. -/
inductive Instr where
  /-- RD CMD (47_host_commands.md R191). -/
  | rdCmd
  /-- RD STATUS (R191). -/
  | rdStatus
  /-- RD COUNT (R191). -/
  | rdCount
  /-- RD LENGTH (R191). -/
  | rdLength
  /-- RD ERRIDX (R191). -/
  | rdErridx
  /-- RD SSPOS (R191). -/
  | rdSspos
  /-- RD ENDPOS (R191). -/
  | rdEndpos
  /-- RD LRC (R191). -/
  | rdLrc
  /-- DECODE T1: WR CMD, 0x0011 (R190). -/
  | decodeT1
  /-- DECODE T2: WR CMD, 0x0012 (R190). -/
  | decodeT2
  /-- DECODE T3: WR CMD, 0x0013 (R190). -/
  | decodeT3
  /-- WR COUNT, n (R192). -/
  | wrCount (n : Reg)
  /-- WRRAW i, b (R193). -/
  | wrRaw (i : Reg) (b : Bool)
  /-- RDRAW i (R194). -/
  | rdRaw (i : Reg)
  /-- RDTEXT n (R195). -/
  | rdText (n : Reg)
  /-- Stage 1, the direction detector (41_direction_detector.md R110). -/
  | detect
  /-- Stage 2, normalize and locate (43_sentinel_locator.md R135). -/
  | normloc
  /-- Stage 3, the character decoder (44_character_framer.md R146). -/
  | decodeChars
  /-- Stage 4, the checksum verifier (45_lrc_engine.md R162). -/
  | lrcCheck
  /-- Stage 5, publication (46_sequencer.md R174). -/
  | publish
deriving DecidableEq, Repr

end Sys2Proof
end

