-- ==== Sys2Proof/Machine/State.lean ====
section
/-! DEFINITION. The state of MSTD (10_state.md R20), the reasons a step can stop, and the state at reset (R44). The fields of
STATUS are held by name and its 16-bit view is computed (Flags.lean): the register is read only and BUSY is not stored (R27). -/

namespace Sys2Proof.Machine

/-- STATUS.STATE, the sequencer state (10_state.md R26, 30_encoding.md R87). -/
inductive SeqState where
  | idle | accepted | directionDetected | sentinelFound | charactersDecoded | checksumChecked | done | failed
deriving DecidableEq, Repr

/-- STATUS.REASON (R28, R88). Codes 5 to 7 are reserved, never produced, and have no constructor. Log 16. -/
inductive Reason where
  | noReason | noSentinel | parityError | truncated | checksumMismatch
deriving DecidableEq, Repr

/-- STATUS.DIR, the ReadDirection (R29, R89). Code 3 is reserved, never produced, and has no constructor. Log 16. -/
inductive ReadDirection where
  | unknown | forward | backward
deriving DecidableEq, Repr

/-- STATUS.TRK, the latched track code (R31, R83). -/
inductive TrackCode where
  | noTrack | t1 | t2 | t3
deriving DecidableEq, Repr

/-- The track format that indexes the constant table FMT (00_scope.md R7). -/
inductive Format where
  | sixBit | fourBit
deriving DecidableEq, Repr

/-- Whose step comes next in the total order (00_scope.md R13, 20_memory.md R72, 70_reset_and_hazards.md R230). -/
inductive Turn where
  /-- The ENGINE may take its step. -/
  | engine
  /-- EXT may issue its next transaction. -/
  | ext
  /-- The platform asserts reset. -/
  | reset
deriving DecidableEq, Repr

/-- One operation of the host's program that EXT has still to issue (30_encoding.md R94, R95). The two pseudo-instructions
whose later transactions depend on a value they read are operations of their own. Log 7. -/
inductive HostOp where
  /-- One HT35 transaction. -/
  | xfer (w : Ht35)
  /-- WAIT: RD STATUS, again until it shows BUSY = 0. -/
  | wait
  /-- APPEND b: RD COUNT -> n, WRRAW n, b, WR COUNT, n+1. -/
  | append (b : Bool)
deriving DecidableEq, Repr

/-- The state of the block, of EXT and of the model's bookkeeping. -/
structure State where
  /-- STATUS.STATE (R26). -/
  seq : SeqState
  /-- STATUS.REASON (R28). -/
  reason : Reason
  /-- STATUS.DIR (R29). -/
  dir : ReadDirection
  /-- STATUS.VALID (R30). -/
  valid : Bool
  /-- STATUS.TRK (R31). -/
  trk : TrackCode
  /-- COUNT (R32). -/
  count : Reg
  /-- LENGTH, signed (R33). -/
  length : Reg
  /-- ERRIDX (R34). -/
  erridx : Reg
  /-- SSPOS (R35). -/
  sspos : Reg
  /-- ENDPOS (R36). -/
  endpos : Reg
  /-- LRC (R37). -/
  lrc : Reg
  /-- RAW (R39): the bits written since reset, by rising address. -/
  raw : List (Nat × Bool)
  /-- WORK (R40): the bits written since reset, by rising address. -/
  work : List (Nat × Bool)
  /-- TEXT (R41): the bytes written since reset, by rising address. -/
  text : List Host.Cell
  /-- ACC (R42). -/
  acc : DataVal
  /-- NDATA (R43). -/
  ndata : Reg
  /-- The refusal mark, model only (70_reset_and_hazards.md R235). -/
  refused : Bool
  /-- The OPEN parameter CAP (00_scope.md R6), an argument of the model that no step changes. Log 1. -/
  cap : Nat
  /-- The model's own: how many free values have been drawn. Log 3. -/
  draws : Nat
  /-- The model's own: how many resets have happened, which names the drawing of the buffers' contents. Log 2. -/
  resets : Nat
  /-- EXT's own: what its program has still to issue, in program order (R72, R240). Log 7. -/
  program : List HostOp
  /-- The rest of the total order of turns, as far as it is fixed (R13, R72). Log 6. -/
  schedule : List Turn
  /-- EXT's own: the values its reads returned, in order (R80, R240). Log 7. -/
  reads : List Reg
deriving DecidableEq, Repr

/-- The reasons a step can stop. Each stands for a state that no run reaches (93_implementation_defined.md, treatment "fault"). -/
inductive Fault where
  /-- Raised by DETECT, NORMLOC, DECODE_CHARS and LRC_CHECK when TRK = 0, "which names no format" (10_state.md R31): safe. Log 9. -/
  | noFormat
  /-- Raised by NORMLOC when LOCATE finds no sentinel (43_sentinel_locator.md R136, 93 item 12): safe. Log 10. -/
  | sentinelLost
deriving DecidableEq, Repr

/-- An instruction without a meaning. A transaction the spec refuses is no refusal of the model: it sets the refusal mark and
the run goes on (R235). Log 5. -/
inductive Refusal where
  /-- Raised by exec for an instruction that has no meaning yet: safe. No arm raises it now. -/
  | notModelled (mnemonic : String)
deriving DecidableEq, Repr

/-- The outcome of a step of this machine. -/
abbrev Result := Host.Outcome State Fault Refusal

/-- The machine right after reset (R44, R230, R235 "It is 0 at launch"). The spec gives every register's value. The buffers are
"unspecified": nothing is listed, and a bit or byte not written reads as drawn (log 2). The capacity is the open parameter
(log 1). No program is given and no turn is fixed (logs 6, 7). -/
def State.reset : State where
  seq := .idle
  reason := .noReason
  dir := .unknown
  valid := false
  trk := .noTrack
  count := 0
  length := 0
  erridx := 0
  sspos := 0
  endpos := 0
  lrc := 0
  raw := []
  work := []
  text := []
  acc := 0
  ndata := 0
  refused := false
  cap := Config.cap
  draws := 0
  resets := 0
  program := []
  schedule := []
  reads := []

end Sys2Proof.Machine
end

