-- ==== Sys2Proof/Machine/Operands.lean ====
section
/-! DEFINITION. The operand forms of MSTD: the format table, the fields of a character frame, the ASCII map and the bit-order
reversal. A buffer is given to these functions as the function that reads one of its bits (00_scope.md R9). -/

namespace Sys2Proof.Machine

/-! ## The format table FMT (00_scope.md R7) -/

/-- FMT's index: track 1 is SixBit, tracks 2 and 3 are FourBit, 0 names no format (R7, 10_state.md R31, 30_encoding.md R83). -/
def TrackCode.format : TrackCode → Option Format
  | .noTrack => none
  | .t1 => some .sixBit
  | .t2 => some .fourBit
  | .t3 => some .fourBit

/-- W, the character width in bits (R7). -/
def Format.width : Format → Nat
  | .sixBit => 7
  | .fourBit => 5

/-- D, the data bits per character (R7). -/
def Format.dataBits : Format → Nat
  | .sixBit => 6
  | .fourBit => 4

/-- SS, the start sentinel's data value (R7). -/
def Format.ss : Format → DataVal
  | .sixBit => 0x05
  | .fourBit => 0x0B

/-- ES, the end sentinel's data value (R7). -/
def Format.es : Format → DataVal
  | .sixBit => 0x1F
  | .fourBit => 0x0F

/-- OFF, the ASCII offset (R7). -/
def Format.off : Format → Byte
  | .sixBit => 0x20
  | .fourBit => 0x30

/-! ## Frames (00_scope.md R10, 30_encoding.md R84) -/

/-- FRAME(buf, p, W) = the sum over k in 0..W-1 of buf[p+k] << k, as a number. -/
def frameSum (bit : Nat → Bool) (p W : Nat) : Nat :=
  ((List.range W).map fun k => (bit (p + k)).toNat <<< k).sum

/-- FRAME(buf, p, W), zero extended to the widest frame (44_character_framer.md R140). -/
def frame (bit : Nat → Bool) (p W : Nat) : Frame := BitVec.ofNat 7 (frameSum bit p W)

/-- DATA(c, D) = c[D-1:0], unsigned (R10, 44_character_framer.md R141). -/
def dataField (c : Frame) (D : Nat) : DataVal := (c.setWidth D).setWidth 6

/-- PBIT(c, D) = c[D] (R10, R141). -/
def parityBit (c : Frame) (D : Nat) : Bool := c.getLsbD D

/-- The ASCII byte of a data value, zext_8(v) + OFF (44_character_framer.md R143). -/
def asciiByte (f : Format) (v : DataVal) : Byte := v.setWidth 8 + f.off

/-! ## Buffers as bit sequences -/

/-- The first n bits of a buffer, in order. -/
def bitsOf (bit : Nat → Bool) (n : Nat) : List Bool := (List.range n).map bit

/-- REVERSE(buf, n): r[i] = buf[n-1-i] for 0 <= i < n, no complement (42_bit_reversal.md R121, R123). -/
def reverseBits (bit : Nat → Bool) (n : Nat) : List Bool := (List.range n).map fun i => bit (n - 1 - i)

end Sys2Proof.Machine
end

