-- ==== Sys2Proof/Machine/Flags.lean ====
section
/-! DEFINITION. Parity, the flags and the codes of STATUS, and its 16-bit view. -/

namespace Sys2Proof.Machine

/-! ## Parity (00_scope.md R10) -/

/-- popcount(v), the number of 1 bits (00_scope.md R8). -/
def popcount {n : Nat} (v : BitVec n) : Nat := (List.range n).countP fun i => v.getLsbD i

/-- ODD(c, W): odd parity holds over the frame's W bits (44_character_framer.md R142). -/
def oddParity (c : Frame) (W : Nat) : Bool := popcount (c.setWidth W) % 2 == 1

/-- ODDBIT(x): the parity bit that makes x odd (R10, 45_lrc_engine.md R161). -/
def oddBit (x : DataVal) : Bool := popcount x % 2 == 0

/-! ## Codes (30_encoding.md R83, R87 to R89) -/

/-- The code of STATUS.STATE (R87). -/
def SeqState.code : SeqState → StageCode
  | .idle => 0
  | .accepted => 1
  | .directionDetected => 2
  | .sentinelFound => 3
  | .charactersDecoded => 4
  | .checksumChecked => 5
  | .done => 6
  | .failed => 7

/-- The sequencer state of a code (R87). -/
def seqStateOfCode (c : StageCode) : SeqState :=
  match c.toNat with
  | 0 => .idle
  | 1 => .accepted
  | 2 => .directionDetected
  | 3 => .sentinelFound
  | 4 => .charactersDecoded
  | 5 => .checksumChecked
  | 6 => .done
  | _ => .failed

/-- The code of STATUS.REASON (R88). -/
def Reason.code : Reason → BitVec 3
  | .noReason => 0
  | .noSentinel => 1
  | .parityError => 2
  | .truncated => 3
  | .checksumMismatch => 4

/-- The code of STATUS.DIR (R89). -/
def ReadDirection.code : ReadDirection → BitVec 2
  | .unknown => 0
  | .forward => 1
  | .backward => 2

/-- The code of STATUS.TRK and CMD.TRACK, the track number in binary (R83). -/
def TrackCode.code : TrackCode → BitVec 2
  | .noTrack => 0
  | .t1 => 1
  | .t2 => 2
  | .t3 => 3

/-! ## BUSY and STATUS -/

/-- BUSY as a function of STATE (10_state.md R27). -/
def SeqState.busy : SeqState → Bool
  | .accepted | .directionDetected | .sentinelFound | .charactersDecoded | .checksumChecked => true
  | .idle | .done | .failed => false

/-- STATUS.BUSY (10_state.md R27). -/
def State.busy (s : State) : Bool := s.seq.busy

/-- The layout of STATUS: reserved[15:12] = 0, TRK[11:10], VALID[9], DIR[8:7], REASON[6:4], BUSY[3], STATE[2:0] (R25). -/
def statusLayout (trk : BitVec 2) (valid : BitVec 1) (dir : BitVec 2) (reason : BitVec 3) (busy : Bool)
    (state : BitVec 3) : Reg :=
  0#4 ++ trk ++ valid ++ dir ++ reason ++ BitVec.ofBool busy ++ state

/-- The 16-bit value of STATUS (R25). -/
def State.statusWord (s : State) : Reg :=
  statusLayout s.trk.code (BitVec.ofBool s.valid) s.dir.code s.reason.code s.busy s.seq.code

/-! ## The LRC register and its fields (10_state.md R37, 45_lrc_engine.md R161, R162) -/

/-- LRC_EXP: x = ACC[D-1:0] with the parity bit ODDBIT(x) at bit D (R161). -/
def lrcExpected (f : Format) (acc : DataVal) : Frame :=
  let x : DataVal := (acc.setWidth f.dataBits).setWidth 6
  x.setWidth 7 ||| ((BitVec.ofBool (oddBit x)).setWidth 7 <<< f.dataBits)

/-- The layout of LRC: 0, OBS[14:8], PRESENT[7], EXP[6:0] (R37, R162). -/
def lrcLayout (obs : Frame) (present : Bool) (exp : Frame) : Reg :=
  0#1 ++ obs ++ BitVec.ofBool present ++ exp

end Sys2Proof.Machine
end

