-- ==== Sys2Proof/WellFormed.lean ====
section
/-! DEFINITION. The range checks of 30_encoding.md R91 that depend on the capacity: items 6, 7, 8 and 10. Every other check of
R91 on a transaction's own bits is the decoder's (Decode.lean), since those words name no instruction at all. -/

namespace Sys2Proof

/-- OUT_CAP = floor(CAP / 5), the capacity of TEXT in bytes (00_scope.md R6, 92_eei_decisions.md D22). -/
def outCap (cap : Nat) : Nat := cap / 5

/-- The operand of an instruction lies in the range that a block of capacity `cap` admits (R91 items 6, 7, 8, 10). -/
def Instr.wellFormed (cap : Nat) : Instr → Bool
  | .wrCount n => n.toNat ≤ cap
  | .wrRaw i _ => i.toNat < cap
  | .rdRaw i => i.toNat < cap
  | .rdText n => n.toNat < outCap cap
  | .rdCmd | .rdStatus | .rdCount | .rdLength | .rdErridx | .rdSspos | .rdEndpos | .rdLrc => true
  | .decodeT1 | .decodeT2 | .decodeT3 => true
  | .detect | .normloc | .decodeChars | .lrcCheck | .publish => true

end Sys2Proof
end

