-- ==== Sys2Proof/Machine/Ops.lean ====
section
/-! DEFINITION. The shared operations: buffers as memory, draws, the return of a read, refusal, failure, acceptance and reset. -/

namespace Sys2Proof.Machine

/-! ## Memory: a buffer's written cells, by strictly rising address

An unlisted address holds no written value (log 2): its value is a draw where a rule reads it. So every entry differs from
what an unlisted address holds, and the canonical form is the rising order alone. -/

/-- The value written at an address, if any. -/
def Memory.read {α : Type} : List (Nat × α) → Nat → Option α
  | [], _ => none
  | (b, v) :: m, a => if a = b then some v else Memory.read m a

/-- Write one cell, keeping the addresses strictly rising. -/
def Memory.write {α : Type} : List (Nat × α) → Nat → α → List (Nat × α)
  | [], a, v => [(a, v)]
  | (b, w) :: m, a, v =>
    if a < b then (a, v) :: (b, w) :: m
    else if a = b then (a, v) :: m
    else (b, w) :: Memory.write m a v

/-- Write a sequence at consecutive addresses from `a`. -/
def Memory.writeFrom {α : Type} (m : List (Nat × α)) (a : Nat) : List α → List (Nat × α)
  | [] => m
  | v :: vs => Memory.writeFrom (Memory.write m a v) (a + 1) vs

/-- The canonical form: addresses strictly rising. -/
def Memory.wf {α : Type} : List (Nat × α) → Bool
  | [] => true
  | [_] => true
  | (a, _) :: (b, w) :: m => a < b && Memory.wf ((b, w) :: m)

/-- Every listed address is below a capacity. -/
def Memory.below {α : Type} (bound : Nat) (m : List (Nat × α)) : Bool := m.all fun c => c.1 < bound

/-! ## Reading the three buffers -/

/-- RAW[i]: what was written since reset, else what the reset drew (10_state.md R39). Log 2. -/
def State.rawBit (s : State) (i : Nat) : Bool := (Memory.read s.raw i).getD (Config.rawAtReset s.resets i)

/-- WORK[i] (10_state.md R40). Log 2. -/
def State.workBit (s : State) (i : Nat) : Bool := (Memory.read s.work i).getD (Config.workAtReset s.resets i)

/-- TEXT[n] (10_state.md R41). Log 2. -/
def State.textByte (s : State) (n : Nat) : Byte := (Memory.read s.text n).getD (Config.textAtReset s.resets n)

/-- OUT_CAP of this machine (00_scope.md R6). -/
def State.outCap (s : State) : Nat := Sys2Proof.outCap s.cap

/-! ## Draws (00_scope.md R11) -/

/-- The free value of width w that draw number k takes (70_reset_and_hazards.md R237: "The draw is fresh per read"). Log 3. -/
def freeBits (w k : Nat) : BitVec w := (Config.freeValue k).setWidth w

/-- Take n draws: the next draw is a later one. -/
def State.useDraws (n : Nat) (s : State) : State := { s with draws := s.draws + n }

/-! ## What a transaction does to EXT and to the refusal mark -/

/-- A read returns one 16-bit value to EXT (30_encoding.md R80). It changes nothing else (20_memory.md R70). -/
def State.returnRead (v : Reg) (s : State) : State := { s with reads := s.reads ++ [v] }

/-- refuse(why): the mark is set and no other state changes (00_scope.md R11, 70_reset_and_hazards.md R235). Log 5. -/
def State.refuse (s : State) : State := { s with refused := true }

/-! ## Acceptance, failure and reset: the three ways into ACCEPTED, FAILED and IDLE -/

/-- The writes of an accepted DECODE (47_host_commands.md R190). -/
def State.accept (t : TrackCode) (s : State) : State :=
  { s with
    trk := t, reason := .noReason, dir := .unknown, valid := false, length := 0, erridx := 0, sspos := 0, endpos := 0,
    lrc := 0, acc := 0, ndata := 0, seq := .accepted }

/-- fail(reason, idx), the failure publication: MSTD's one exception entry (46_sequencer.md R175, 60_exceptions.md R212). No
return from it exists: an accepted DECODE or a reset leaves FAILED (R214). -/
def State.fail (why : Reason) (idx : Nat) (s : State) : State :=
  { s with
    reason := why, erridx := BitVec.ofNat 16 idx, valid := false, length := 0xFFFF, seq := .failed }

/-- Reset of the block (70_reset_and_hazards.md R230, 10_state.md R44). The refusal mark stays (R235), and so does what is EXT's
or the model's own. The buffers' contents are drawn anew (R232). Log 17. -/
def State.resetBlock (s : State) : State :=
  { s with
    seq := .idle, reason := .noReason, dir := .unknown, valid := false, trk := .noTrack, count := 0, length := 0,
    erridx := 0, sspos := 0, endpos := 0, lrc := 0, raw := [], work := [], text := [], acc := 0, ndata := 0,
    resets := s.resets + 1 }

/-! ## Running an engine stage under the latched format -/

/-- A stage selects its constants as FMT(STATUS.TRK) (10_state.md R31). No stage runs with TRK = 0. Log 9. -/
def State.withFormat (s : State) (k : Format → Result) : Result :=
  match s.trk.format with
  | some f => k f
  | none => .fault .noFormat

end Sys2Proof.Machine
end

