-- ==== Sys2Proof/Machine/Framer.lean ====
section
/-! DEFINITION. The character framer and parity validator: the stage DECODE_CHARS (44_character_framer.md). -/

namespace Sys2Proof.Machine

/-- The loop variables of DECODE_CHARS (R146) with the TEXT buffer it writes: local to one atomic step (10_state.md R23). -/
structure FramerVars where
  cur : Nat
  idx : Nat
  nd : Nat
  acc : DataVal
  text : List Host.Cell
deriving DecidableEq, Repr

/-- How the loop ends (R146). -/
inductive FramerEnd where
  /-- The frame at `cur` is the end sentinel (R144). -/
  | ended (v : FramerVars)
  /-- fail(why, idx) (R147, R148). -/
  | failed (why : Reason) (v : FramerVars)
deriving DecidableEq, Repr

/-- What one pass of the loop comes to (R146). -/
inductive FramerStep where
  /-- The loop goes on with these variables. -/
  | more (v : FramerVars)
  /-- The loop ends. -/
  | stop (e : FramerEnd)
deriving DecidableEq, Repr

/-- A covered character enters the checksum accumulator (45_lrc_engine.md R160). -/
def accumulate (covered : Bool) (acc v : DataVal) : DataVal := if covered then acc ^^^ v else acc

/-- One pass of the loop: the bound check, then parity, then the end-sentinel test (R146, R213 item 3). Index 0 is the start
sentinel, which is parity checked, not stored, and covered only by LRC_INCLUDE_SS (R145). -/
def framerPass (bit : Nat → Bool) (n : Nat) (f : Format) (r : FramerVars) : FramerStep :=
  if n < r.cur + f.width then .stop (.failed .truncated r)
  else
    let c := frame bit r.cur f.width
    let v := dataField c f.dataBits
    if !oddParity c f.width then .stop (.failed .parityError r)
    else if r.idx = 0 then
      .more { r with cur := r.cur + f.width, idx := r.idx + 1, acc := accumulate Config.lrcIncludeSs r.acc v }
    else if v = f.es then .stop (.ended { r with acc := accumulate Config.lrcIncludeEs r.acc v })
    else
      .more { cur := r.cur + f.width, idx := r.idx + 1, nd := r.nd + 1, acc := accumulate true r.acc v,
              text := Memory.write r.text r.nd (asciiByte f v) }

/-- The loop, for at most `fuel` passes. With the fuel of `framerFuel` the last arm is never reached (R152). -/
def framerLoop (bit : Nat → Bool) (n : Nat) (f : Format) : Nat → FramerVars → FramerEnd
  | 0, r => .failed .truncated r
  | fuel + 1, r =>
    match framerPass bit n f r with
    | .more r' => framerLoop bit n f fuel r'
    | .stop e => e

/-- The bound on passes: floor((COUNT - SSPOS) / W) + 1 (R152). -/
def framerFuel (n start : Nat) (f : Format) : Nat := (n - start) / f.width + 1

/-- DECODE_CHARS' initial loop variables (R146). -/
def State.framerStart (s : State) : FramerVars := { cur := s.sspos.toNat, idx := 0, nd := 0, acc := 0, text := s.text }

/-- The whole loop of the stage, from SSPOS over WORK[0..COUNT-1] (R146). -/
def State.frameChars (s : State) (f : Format) : FramerEnd :=
  framerLoop s.workBit s.count.toNat f (framerFuel s.count.toNat s.sspos.toNat f) s.framerStart

/-- The end sentinel was reached at `r.cur`: ENDPOS, NDATA, ACC and TEXT are written (R146). -/
def State.charsDecoded (f : Format) (r : FramerVars) (s : State) : State :=
  { s with
    text := r.text, endpos := BitVec.ofNat 16 (r.cur + f.width), ndata := BitVec.ofNat 16 r.nd, acc := r.acc,
    seq := .charactersDecoded }

/-- DECODE_CHARS (R146). On failure the bytes already written stay in TEXT and ENDPOS, NDATA and ACC are not written. -/
def execDecodeChars (s : State) : Result :=
  s.withFormat fun f =>
    match s.frameChars f with
    | .ended r => .next (s.charsDecoded f r)
    | .failed why r => .next (State.fail why r.idx { s with text := r.text })

end Sys2Proof.Machine
end

