-- ==== Sys2Proof/Machine/HostCommands.lean ====
section
/-! DEFINITION. The host transactions (47_host_commands.md). The checks on a word's own bits are the decoder's; the checks on
BUSY and on the capacity stand here. A refused transaction is a next state with the refusal mark set (R196, R235). -/

namespace Sys2Proof.Machine

/-! ## RD (R191, R237) -/

/-- A result register: its value when BUSY = 0, a fresh draw of 16 bits while BUSY = 1 (R191). -/
def State.readResult (v : Reg) (s : State) : Result :=
  if s.busy then .next ((s.useDraws 1).returnRead (freeBits 16 s.draws)) else .next (s.returnRead v)

/-- STATUS while BUSY = 1: TRK, BUSY and STATE are true, VALID, DIR and REASON are the draws k, k+1 and k+2 (R191). -/
def State.statusWhileBusy (s : State) (k : Nat) : Reg :=
  statusLayout s.trk.code (freeBits 1 k) (freeBits 2 (k + 1)) (freeBits 3 (k + 2)) true s.seq.code

/-- RD CMD returns 0x0000: CMD holds no state (R24, R191). -/
def execRdCmd (s : State) : Result := .next (s.returnRead 0)

/-- RD STATUS (R191). -/
def execRdStatus (s : State) : Result :=
  if s.busy then .next ((s.useDraws 3).returnRead (s.statusWhileBusy s.draws)) else .next (s.returnRead s.statusWord)

/-- RD COUNT: true in every state (R191). -/
def execRdCount (s : State) : Result := .next (s.returnRead s.count)

/-- RD LENGTH (R191). -/
def execRdLength (s : State) : Result := s.readResult s.length

/-- RD ERRIDX (R191). -/
def execRdErridx (s : State) : Result := s.readResult s.erridx

/-- RD SSPOS (R191). -/
def execRdSspos (s : State) : Result := s.readResult s.sspos

/-- RD ENDPOS (R191). -/
def execRdEndpos (s : State) : Result := s.readResult s.endpos

/-- RD LRC (R191). -/
def execRdLrc (s : State) : Result := s.readResult s.lrc

/-! ## DECODE (R190) -/

/-- A DECODE for track t: refused while BUSY, else accepted (R190, R236 O1). -/
def State.startDecode (t : TrackCode) (s : State) : Result :=
  if s.busy then .next s.refuse else .next (s.accept t)

/-- DECODE T1 (R190). -/
def execDecodeT1 (s : State) : Result := s.startDecode .t1

/-- DECODE T2 (R190). -/
def execDecodeT2 (s : State) : Result := s.startDecode .t2

/-- DECODE T3 (R190). -/
def execDecodeT3 (s : State) : Result := s.startDecode .t3

/-! ## Writes and buffer reads (R192 to R195) -/

/-- WR COUNT, n: refused while BUSY or above CAP (R192). -/
def execWrCount (n : Reg) (s : State) : Result :=
  if s.busy then .next s.refuse
  else if s.cap < n.toNat then .next s.refuse
  else .next { s with count := n }

/-- WRRAW i, b: refused while BUSY or at or above CAP (R193). -/
def execWrRaw (i : Reg) (b : Bool) (s : State) : Result :=
  if s.busy then .next s.refuse
  else if s.cap ≤ i.toNat then .next s.refuse
  else .next { s with raw := Memory.write s.raw i.toNat b }

/-- RDRAW i: RAW[i] zero extended, in every state; refused at or above CAP (R194). -/
def execRdRaw (i : Reg) (s : State) : Result :=
  if s.cap ≤ i.toNat then .next s.refuse
  else .next (s.returnRead ((BitVec.ofBool (s.rawBit i.toNat)).setWidth 16))

/-- RDTEXT n reads a defined byte: STATE = DONE and n < LENGTH, LENGTH being signed (R195, R33). -/
def State.textReadable (s : State) (n : Nat) : Bool := s.seq == .done && decide ((n : Int) < s.length.toInt)

/-- The state after RDTEXT n: TEXT[n] zero extended is returned where readable, else a draw; refused at or above OUT_CAP (R195). -/
def State.readText (n : Nat) (s : State) : State :=
  if s.outCap ≤ n then s.refuse
  else if s.textReadable n then s.returnRead ((s.textByte n).setWidth 16)
  else (s.useDraws 1).returnRead (freeBits 16 s.draws)

/-- RDTEXT n (R195). -/
def execRdText (n : Reg) (s : State) : Result := .next (s.readText n.toNat)

end Sys2Proof.Machine
end

