-- ==== Sys2Proof/Machine/Locator.lean ====
section
/-! DEFINITION. The direction detector (41_direction_detector.md), the bit reversal buffer (42_bit_reversal.md) and the sentinel
locator (43_sentinel_locator.md): the stages DETECT and NORMLOC. -/

namespace Sys2Proof.Machine

/-- The window at p has the start sentinel's data bits; its parity bit is ignored (43_sentinel_locator.md R132). -/
def sentinelAt (bit : Nat → Bool) (f : Format) (p : Nat) : Bool :=
  dataField (frame bit p f.width) f.dataBits == f.ss

/-- LOCATE(buf, n, f): the leftmost matching window that lies wholly inside the n valid bits, p = 0 .. n - W; none stands for
NOTFOUND (R130, R131, R133, R134). -/
def locate (bit : Nat → Bool) (n : Nat) (f : Format) : Option Nat :=
  (List.range (n + 1 - f.width)).find? (sentinelAt bit f)

/-- RAW[0 .. n-1] with n = COUNT, the bits as captured (R111). -/
def State.capturedBits (s : State) : List Bool := bitsOf s.rawBit s.count.toNat

/-- REVERSE(RAW, n) with n = COUNT (R112, R121). -/
def State.reversedBits (s : State) : List Bool := reverseBits s.rawBit s.count.toNat

/-- WORK[0 .. n-1] <- RAW[0 .. n-1] (R111, 42_bit_reversal.md R122). -/
def State.copyRaw (s : State) : State := { s with work := Memory.writeFrom s.work 0 s.capturedBits }

/-- WORK[0 .. n-1] <- REVERSE(RAW, n) (R112, R121). -/
def State.copyRawReversed (s : State) : State := { s with work := Memory.writeFrom s.work 0 s.reversedBits }

/-- NORMALIZE(): BACKWARD reverses, otherwise the bits are copied as captured (42_bit_reversal.md R122). -/
def State.normalize (s : State) : State :=
  match s.dir with
  | .backward => s.copyRawReversed
  | .forward => s.copyRaw
  | .unknown => s.copyRaw

/-- LOCATE on WORK with n = COUNT. -/
def State.locateInWork (s : State) (f : Format) : Option Nat := locate s.workBit s.count.toNat f

/-- A successful DETECT: DIR is written and the next stage selected (R110). -/
def State.detected (d : ReadDirection) (s : State) : State := { s with dir := d, seq := .directionDetected }

/-- DETECT: forward first, then backward, else NO_SENTINEL with DIR = UNKNOWN (41_direction_detector.md R110 to R114). -/
def execDetect (s : State) : Result :=
  s.withFormat fun f =>
    match s.copyRaw.locateInWork f with
    | some _ => .next (s.copyRaw.detected .forward)
    | none =>
      match s.copyRaw.copyRawReversed.locateInWork f with
      | some _ => .next (s.copyRaw.copyRawReversed.detected .backward)
      | none => .next (State.fail .noSentinel 0 { s.copyRaw.copyRawReversed with dir := .unknown })

/-- A successful NORMLOC: SSPOS is written and the next stage selected (R135). -/
def State.located (p : Nat) (s : State) : State := { s with sspos := BitVec.ofNat 16 p, seq := .sentinelFound }

/-- NORMLOC: normalize, then locate (43_sentinel_locator.md R135). NOTFOUND contradicts R136, "a model that keeps such an arm
should fault". Log 10. -/
def execNormloc (s : State) : Result :=
  s.withFormat fun f =>
    match s.normalize.locateInWork f with
    | some p => .next (s.normalize.located p)
    | none => .fault .sentinelLost

end Sys2Proof.Machine
end

