-- ==== Sys2Proof/Machine/Lrc.lean ====
section
/-! DEFINITION. The longitudinal redundancy check engine and the publish stage: LRC_CHECK (45_lrc_engine.md) and PUBLISH
(46_sequencer.md R174). -/

namespace Sys2Proof.Machine

/-- LRC_PRESENT: W bits remain at ENDPOS (R162, R163). -/
def State.lrcPresent (s : State) (f : Format) : Bool := s.endpos.toNat + f.width ≤ s.count.toNat

/-- LRC_OBS: the frame at ENDPOS, or 0 if there is none (R162). -/
def State.lrcObserved (s : State) (f : Format) : Frame :=
  if s.lrcPresent f then frame s.workBit s.endpos.toNat f.width else 0

/-- The comparison over all W bits; the observed frame's own parity is not checked (R164). -/
def State.lrcMatch (s : State) (f : Format) : Bool :=
  s.lrcPresent f && (s.lrcObserved f == lrcExpected f s.acc)

/-- LRC_CHECK: LRC and VALID are written; a mismatch is no abort (R162, R164). -/
def execLrcCheck (s : State) : Result :=
  s.withFormat fun f =>
    .next { s with
      lrc := lrcLayout (s.lrcObserved f) (s.lrcPresent f) (lrcExpected f s.acc), valid := s.lrcMatch f,
      seq := .checksumChecked }

/-- PUBLISH: LENGTH <- NDATA, REASON from VALID, DONE (46_sequencer.md R174). -/
def execPublish (s : State) : Result :=
  .next { s with
    length := s.ndata, reason := if s.valid then .noReason else .checksumMismatch, seq := .done }

end Sys2Proof.Machine
end

