-- ==== Sys2Proof/Machine/Dispatch.lean ====
section
/-! DEFINITION. One arm per instruction. A stage's arm is its operation; that it runs exactly when STATUS.STATE selects it
(30_encoding.md R90) is the step's affair (Schedule.lean, Step.lean). -/

namespace Sys2Proof.Machine
open Host

def exec (i : Instr) (s : State) : Host.Outcome State Fault Refusal :=
  match i with
  | .rdCmd => Sys2Proof.Machine.execRdCmd s
  | .rdStatus => Sys2Proof.Machine.execRdStatus s
  | .rdCount => Sys2Proof.Machine.execRdCount s
  | .rdLength => Sys2Proof.Machine.execRdLength s
  | .rdErridx => Sys2Proof.Machine.execRdErridx s
  | .rdSspos => Sys2Proof.Machine.execRdSspos s
  | .rdEndpos => Sys2Proof.Machine.execRdEndpos s
  | .rdLrc => Sys2Proof.Machine.execRdLrc s
  | .decodeT1 => Sys2Proof.Machine.execDecodeT1 s
  | .decodeT2 => Sys2Proof.Machine.execDecodeT2 s
  | .decodeT3 => Sys2Proof.Machine.execDecodeT3 s
  | .wrCount n => Sys2Proof.Machine.execWrCount n s
  | .wrRaw a b => Sys2Proof.Machine.execWrRaw a b s
  | .rdRaw a => Sys2Proof.Machine.execRdRaw a s
  | .rdText n => Sys2Proof.Machine.execRdText n s
  | .detect => Sys2Proof.Machine.execDetect s
  | .normloc => Sys2Proof.Machine.execNormloc s
  | .decodeChars => Sys2Proof.Machine.execDecodeChars s
  | .lrcCheck => Sys2Proof.Machine.execLrcCheck s
  | .publish => Sys2Proof.Machine.execPublish s

end Sys2Proof.Machine
end

