-- ==== Sys2Proof/Decode.lean ====
section
/-! DEFINITION. The decoder of MSTD's words and, after it, the encoder. A host transaction is one 35-bit word (30_encoding.md
R80, R93); an engine stage is selected by the 3-bit code STATUS[2:0] (R90). Both decoders are total and reject by name. -/

namespace Sys2Proof

/-- Why a word names no instruction (30_encoding.md R91, items 1 to 5, 7 and 9, and R90's last row). -/
inductive DecodeReject where
  /-- Item 1: SPACE = 11. -/
  | reservedSpace
  /-- Item 2: a read with DATA != 0. -/
  | readWithData
  /-- Item 3: a REG access at 0x0008 to 0xFFFF. -/
  | reservedRegister
  /-- Item 4: a REG write to a register other than CMD and COUNT. -/
  | readOnlyRegister
  /-- Item 5: a CMD write with a reserved OP or a nonzero reserved bit. -/
  | reservedCommand
  /-- Item 5: a CMD write with TRACK = 00. -/
  | reservedTrack
  /-- Item 7: a RAW write with DATA[15:1] != 0. -/
  | badRawData
  /-- Item 9: a TEXT write of any kind. -/
  | textWrite
  /-- R90: STATE 0, 6 and 7 select no engine step. -/
  | noEngineStage
deriving DecidableEq, Repr

/-- A word with its format: the two formats of the opcode table. -/
inductive Encoded where
  | ht35 (w : Ht35)
  | stage (c : StageCode)
deriving DecidableEq, Repr

/-! ## Fields (R80, R81) -/

/-- HT35[34]: 1 = write, 0 = read. -/
def ht35Rw (w : Ht35) : BitVec 1 := w.extractLsb' 34 1
/-- HT35[33:32]: 00 = REG, 01 = RAW, 10 = TEXT, 11 = reserved. -/
def ht35Space (w : Ht35) : BitVec 2 := w.extractLsb' 32 2
/-- HT35[31:16]. -/
def ht35Addr (w : Ht35) : Reg := w.extractLsb' 16 16
/-- HT35[15:0]. -/
def ht35Data (w : Ht35) : Reg := w.extractLsb' 0 16

/-- CMD[15:8], reserved. -/
def cmdReservedHigh (c : Reg) : BitVec 8 := c.extractLsb' 8 8
/-- CMD[7:4], OP. -/
def cmdOp (c : Reg) : BitVec 4 := c.extractLsb' 4 4
/-- CMD[3:2], reserved. -/
def cmdReservedLow (c : Reg) : BitVec 2 := c.extractLsb' 2 2
/-- CMD[1:0], TRACK. -/
def cmdTrack (c : Reg) : BitVec 2 := c.extractLsb' 0 2

/-! ## The decoder -/

/-- A REG read: addresses 0x0000 to 0x0007 (R71, R191). -/
def decodeRegRead (addr : Reg) : Except DecodeReject Instr :=
  match addr.toNat with
  | 0 => .ok .rdCmd
  | 1 => .ok .rdStatus
  | 2 => .ok .rdCount
  | 3 => .ok .rdLength
  | 4 => .ok .rdErridx
  | 5 => .ok .rdSspos
  | 6 => .ok .rdEndpos
  | 7 => .ok .rdLrc
  | _ => .error .reservedRegister

/-- The command word written to CMD (R81 to R83): OP = 0x1 is DECODE, TRACK = 00 is reserved. -/
def decodeCommand (c : Reg) : Except DecodeReject Instr :=
  if cmdReservedHigh c ≠ 0 ∨ cmdReservedLow c ≠ 0 ∨ cmdOp c ≠ 1 then .error .reservedCommand
  else match (cmdTrack c).toNat with
    | 1 => .ok .decodeT1
    | 2 => .ok .decodeT2
    | 3 => .ok .decodeT3
    | _ => .error .reservedTrack

/-- A REG write: only CMD and COUNT are writable (R61, R91 items 3 and 4). -/
def decodeRegWrite (addr data : Reg) : Except DecodeReject Instr :=
  if addr = 0 then decodeCommand data
  else if addr = 2 then .ok (.wrCount data)
  else if addr.toNat ≤ 7 then .error .readOnlyRegister
  else .error .reservedRegister

/-- A read transaction; SPACE is not 11. -/
def decodeRead (space : BitVec 2) (addr data : Reg) : Except DecodeReject Instr :=
  if data ≠ 0 then .error .readWithData
  else if space = 0 then decodeRegRead addr
  else if space = 1 then .ok (.rdRaw addr)
  else .ok (.rdText addr)

/-- A write transaction; SPACE is not 11. -/
def decodeWrite (space : BitVec 2) (addr data : Reg) : Except DecodeReject Instr :=
  if space = 0 then decodeRegWrite addr data
  else if space = 1 then
    if data.extractLsb' 1 15 ≠ 0 then .error .badRawData else .ok (.wrRaw addr (data.getLsbD 0))
  else .error .textWrite

/-- The instruction a host word names, or the name of the reason it names none (R80, R91). -/
def decodeHt35 (w : Ht35) : Except DecodeReject Instr :=
  if ht35Space w = 3 then .error .reservedSpace
  else if ht35Rw w = 0 then decodeRead (ht35Space w) (ht35Addr w) (ht35Data w)
  else decodeWrite (ht35Space w) (ht35Addr w) (ht35Data w)

/-- The stage that STATUS[2:0] selects (R90). -/
def decodeStage (c : StageCode) : Except DecodeReject Instr :=
  match c.toNat with
  | 1 => .ok .detect
  | 2 => .ok .normloc
  | 3 => .ok .decodeChars
  | 4 => .ok .lrcCheck
  | 5 => .ok .publish
  | _ => .error .noEngineStage

/-- The decoder on a word of either format. -/
def decode : Encoded → Except DecodeReject Instr
  | .ht35 w => decodeHt35 w
  | .stage c => decodeStage c

/-! ## The encoder -/

/-- The HT35 word with the given fields (R80). -/
def ht35Word (rw : BitVec 1) (space : BitVec 2) (addr data : Reg) : Ht35 := rw ++ space ++ addr ++ data

/-- The command word with OP = DECODE and the given TRACK (R81 to R83). -/
def decodeCommandWord (track : BitVec 2) : Reg := 0#8 ++ 1#4 ++ 0#2 ++ track

/-- The word of an instruction (R80 to R83, R90; spec/opcode_table.json). -/
def encode : Instr → Encoded
  | .rdCmd => .ht35 (ht35Word 0 0 0 0)
  | .rdStatus => .ht35 (ht35Word 0 0 1 0)
  | .rdCount => .ht35 (ht35Word 0 0 2 0)
  | .rdLength => .ht35 (ht35Word 0 0 3 0)
  | .rdErridx => .ht35 (ht35Word 0 0 4 0)
  | .rdSspos => .ht35 (ht35Word 0 0 5 0)
  | .rdEndpos => .ht35 (ht35Word 0 0 6 0)
  | .rdLrc => .ht35 (ht35Word 0 0 7 0)
  | .decodeT1 => .ht35 (ht35Word 1 0 0 (decodeCommandWord 1))
  | .decodeT2 => .ht35 (ht35Word 1 0 0 (decodeCommandWord 2))
  | .decodeT3 => .ht35 (ht35Word 1 0 0 (decodeCommandWord 3))
  | .wrCount n => .ht35 (ht35Word 1 0 2 n)
  | .wrRaw i b => .ht35 (ht35Word 1 1 i ((BitVec.ofBool b).setWidth 16))
  | .rdRaw i => .ht35 (ht35Word 0 1 i 0)
  | .rdText n => .ht35 (ht35Word 0 2 n 0)
  | .detect => .stage 1
  | .normloc => .stage 2
  | .decodeChars => .stage 3
  | .lrcCheck => .stage 4
  | .publish => .stage 5

/-! ## The opcode table as data -/

/-- One row of spec/opcode_table.json: its "match" and "mask", for its format. -/
structure OpcodeRow where
  mnemonic : String
  matchBits : Nat
  maskBits : Nat
deriving DecidableEq, Repr

/-- The HT35 rows of spec/opcode_table.json. -/
def ht35Rows : List OpcodeRow :=
  [⟨"RD_CMD", 0x000000000, 0x7FFFFFFFF⟩, ⟨"RD_STATUS", 0x000010000, 0x7FFFFFFFF⟩,
   ⟨"RD_COUNT", 0x000020000, 0x7FFFFFFFF⟩, ⟨"RD_LENGTH", 0x000030000, 0x7FFFFFFFF⟩,
   ⟨"RD_ERRIDX", 0x000040000, 0x7FFFFFFFF⟩, ⟨"RD_SSPOS", 0x000050000, 0x7FFFFFFFF⟩,
   ⟨"RD_ENDPOS", 0x000060000, 0x7FFFFFFFF⟩, ⟨"RD_LRC", 0x000070000, 0x7FFFFFFFF⟩] ++
  [⟨"DECODE_T1", 0x400000011, 0x7FFFFFFFF⟩, ⟨"DECODE_T2", 0x400000012, 0x7FFFFFFFF⟩,
   ⟨"DECODE_T3", 0x400000013, 0x7FFFFFFFF⟩, ⟨"WR_COUNT", 0x400020000, 0x7FFFF0000⟩,
   ⟨"WRRAW", 0x500000000, 0x70000FFFE⟩, ⟨"RDRAW", 0x100000000, 0x70000FFFF⟩,
   ⟨"RDTEXT", 0x200000000, 0x70000FFFF⟩]

/-- The STAGE rows of spec/opcode_table.json. -/
def stageRows : List OpcodeRow :=
  [⟨"DETECT", 1, 7⟩, ⟨"NORMLOC", 2, 7⟩, ⟨"DECODE_CHARS", 3, 7⟩, ⟨"LRC_CHECK", 4, 7⟩, ⟨"PUBLISH", 5, 7⟩]

/-- The word, as a number, matches the row: the bits under the row's mask are the row's match. -/
def OpcodeRow.fits (r : OpcodeRow) (w : Nat) : Bool := w &&& r.maskBits == r.matchBits

/-- The rows of the word's own format that the word matches. -/
def rowsFitting : Encoded → List OpcodeRow
  | .ht35 w => ht35Rows.filter (·.fits w.toNat)
  | .stage c => stageRows.filter (·.fits c.toNat)

/-- The mnemonic of an instruction's row, as spec/opcode_table.json spells it. -/
def Instr.mnemonic : Instr → String
  | .rdCmd => "RD_CMD"
  | .rdStatus => "RD_STATUS"
  | .rdCount => "RD_COUNT"
  | .rdLength => "RD_LENGTH"
  | .rdErridx => "RD_ERRIDX"
  | .rdSspos => "RD_SSPOS"
  | .rdEndpos => "RD_ENDPOS"
  | .rdLrc => "RD_LRC"
  | .decodeT1 => "DECODE_T1"
  | .decodeT2 => "DECODE_T2"
  | .decodeT3 => "DECODE_T3"
  | .wrCount _ => "WR_COUNT"
  | .wrRaw _ _ => "WRRAW"
  | .rdRaw _ => "RDRAW"
  | .rdText _ => "RDTEXT"
  | .detect => "DETECT"
  | .normloc => "NORMLOC"
  | .decodeChars => "DECODE_CHARS"
  | .lrcCheck => "LRC_CHECK"
  | .publish => "PUBLISH"

/-- The host's reading of a table word. A STAGE row has 3 bits, one byte; an HT35 row has 35, five bytes. The bits above the
format's width must be 0. -/
def decodeTableWord (nbits w : Nat) : Option Instr :=
  if nbits ≤ 8 then
    if w < 2 ^ 3 then (decodeStage (BitVec.ofNat 3 w)).toOption else none
  else
    if w < 2 ^ 35 then (decodeHt35 (BitVec.ofNat 35 w)).toOption else none

end Sys2Proof
end

