-- ==== Sys2Proof/Machine/Schedule.lean ====
section
/-! DEFINITION. Who steps next and what the step runs: the total order of ENGINE, EXT and reset (00_scope.md R13, 20_memory.md
R72, 46_sequencer.md R170, 70_reset_and_hazards.md R230, R241), EXT's program with its two polling pseudo-instructions
(30_encoding.md R95), and how a word is put where the next step takes it. -/

namespace Sys2Proof.Machine

/-! ## The host's words that the pseudo-instructions need (R80, R95) -/

/-- The word of WRRAW i, b. -/
def wrRawWord (i : Reg) (b : Bool) : Ht35 := ht35Word 1 1 i ((BitVec.ofBool b).setWidth 16)

/-- The word of WR COUNT, n. -/
def wrCountWord (n : Reg) : Ht35 := ht35Word 1 0 2 n

/-- The transaction a host operation issues first: its own word, or the RD of WAIT and APPEND (R95). -/
def HostOp.word : HostOp → Ht35
  | .xfer w => w
  | .wait => ht35Word 0 0 1 0
  | .append _ => ht35Word 0 0 2 0

/-- APPEND's two writes once RD COUNT returned n (R95). n + 1 = 65536 fits no HT35 word, and then WRRAW n is refused already
("Refused as its WRRAW is if n = CAP"). Log 8. -/
def appendWrites (n : Reg) (b : Bool) : List HostOp :=
  if n.toNat + 1 < 2 ^ 16 then [.xfer (wrRawWord n b), .xfer (wrCountWord (n + 1))] else [.xfer (wrRawWord n b)]

/-- The value EXT's last read returned. -/
def State.lastRead (s : State) : Reg := s.reads.getLast?.getD 0

/-- What EXT does with the value its read returned: WAIT polls again while s[3] = BUSY = 1, APPEND n issues its writes (R95). -/
def State.resume (op : HostOp) (s : State) : State :=
  match op with
  | .xfer _ => s
  | .wait => if s.lastRead.getLsbD 3 then { s with program := .wait :: s.program } else s
  | .append b => { s with program := appendWrites s.lastRead b ++ s.program }

/-! ## Turns -/

/-- The turn that comes next: the schedule's head; when nothing is fixed, ENGINE while it has a step (weak fairness, R241), else
EXT while its program lasts, else nobody. Logs 6 and 19. -/
def State.nextTurn (s : State) : Option Turn :=
  match s.schedule with
  | t :: _ => some t
  | [] => if s.busy then some .engine else if s.program.isEmpty then none else some .ext

/-- The turn is used up. -/
def State.popTurn (s : State) : State := { s with schedule := s.schedule.tail }

/-- EXT has issued its next operation (R72: in program order). -/
def State.popProgram (s : State) : State := { s with program := s.program.tail }

/-- What a step does. -/
inductive Move where
  /-- Run an instruction. -/
  | run (i : Instr) (s : State)
  /-- Run the read of a polling operation and let EXT act on its value. -/
  | poll (op : HostOp) (i : Instr) (s : State)
  /-- No instruction runs: a refused word, a reset, or an agent without a step. -/
  | settle (s : State)
deriving DecidableEq, Repr

/-- ENGINE's turn: the stage STATUS.STATE selects, or no step (30_encoding.md R90, 46_sequencer.md R170). -/
def State.engineMove (s : State) : Move :=
  match decodeStage s.seq.code with
  | .ok i => .run i s
  | .error _ => .settle s

/-- The move of one host operation; a word that names no instruction is refused (R80, R91, R196). -/
def State.hostMove (op : HostOp) (s : State) : Move :=
  match decodeHt35 op.word with
  | .error _ => .settle s.refuse
  | .ok i =>
    match op with
    | .xfer _ => .run i s
    | .wait => .poll op i s
    | .append _ => .poll op i s

/-- EXT's turn: its program's next operation, or no step. -/
def State.extMove (s : State) : Move :=
  match s.program with
  | [] => .settle s
  | op :: _ => s.popProgram.hostMove op

/-- The move of the turn that comes next. With no turn left the machine waits (70_reset_and_hazards.md R234, R240). Log 20. -/
def State.nextMove (s : State) : Move :=
  match s.nextTurn with
  | none => .settle s
  | some .engine => s.popTurn.engineMove
  | some .ext => s.popTurn.extMove
  | some .reset => .settle s.popTurn.resetBlock

/-- EXT acts on the value a poll's read returned. -/
def resumeOutcome (op : HostOp) : Result → Result
  | .next t => .next (t.resume op)
  | .fault r => .fault r
  | .refused r => .refused r

/-! ## Placing a word where the next step takes it. Log 12. -/

/-- EXT's next transaction is the word w, and it is EXT's turn. -/
def State.offerHostWord (s : State) (w : Ht35) : State :=
  { s with program := .xfer w :: s.program, schedule := .ext :: s.schedule }

/-- The bits of a swipe that holds the start sentinel alone, with its parity bit (30_encoding.md R85, R86). -/
def sentinelSwipe : Format → List Bool
  | .fourBit => [true, true, false, true, false]
  | .sixBit => [true, false, true, false, false, false, true]

/-- NORMLOC runs only where DETECT found a sentinel (43_sentinel_locator.md R136): a state without one gets the shortest swipe
that has one, captured forward. -/
def State.withSentinel (s : State) (f : Format) : State :=
  match s.normalize.locateInWork f with
  | some _ => s
  | none =>
    { s with
      raw := Memory.writeFrom s.raw 0 (sentinelSwipe f), count := BitVec.ofNat 16 f.width, dir := .forward }

/-- The sequencer selects stage c and it is ENGINE's turn. A stage runs only under a latched track (10_state.md R31): where none
is latched, track 2. -/
def State.selectStage (s : State) (c : StageCode) : State :=
  let trk := if s.trk = .noTrack then .t2 else s.trk
  let s' := { s with seq := seqStateOfCode c, trk := trk, schedule := .engine :: s.schedule }
  if s'.seq = .directionDetected then
    match trk.format with
    | some f => s'.withSentinel f
    | none => s'
  else s'

/-- The word of the opcode table, numbered as the table numbers it: 3 bits select a stage, 35 bits are a host transaction. -/
def State.placeWord (s : State) (nbits w : Nat) : State :=
  if nbits ≤ 8 then s.selectStage (BitVec.ofNat 3 w) else s.offerHostWord (BitVec.ofNat 35 w)

end Sys2Proof.Machine
end

