-- ==== Sys2Proof/Machine/Step.lean ====
section
/-! DEFINITION. One step of the machine: one element of the total order of ENGINE, EXT and reset (20_memory.md R72). -/

namespace Sys2Proof.Machine

/-- One step: the next move, carried out. -/
def step (s : State) : Host.Outcome State Fault Refusal :=
  match s.nextMove with
  | .run i t => exec i t
  | .poll op i t => resumeOutcome op (exec i t)
  | .settle t => .next t

/-- The word w of the opcode table stored where step takes its next instruction. Log 12. -/
def State.withFetchWord (s : State) (nbits w : Nat) : State := s.placeWord nbits w

end Sys2Proof.Machine
end

