-- ==== Sys2Proof/Machine/Assembler.lean ====
section
/-! DEFINITION. The host's assembler (30_encoding.md R94, R95): the operations of its syntax, the host operations they stand for,
and the reading of one source line. Log 21. -/

namespace Sys2Proof.Machine

/-- An operation of the syntax, with its operands as numbers (R94), and the four pseudo-instructions (R95). -/
inductive AsmOp where
  | rd (reg : Nat)
  | wr (reg value : Nat)
  | decode (track : Nat)
  | wrraw (i : Nat) (b : Bool)
  | rdraw (i : Nat)
  | rdtext (n : Nat)
  | wait
  | append (b : Bool)
  | loadbits (bits : List Bool)
  | rdstr (n : Nat)
deriving DecidableEq, Repr

/-- A number that fits a 16-bit field of HT35. -/
def fieldOf (n : Nat) : Option Reg := if n < 2 ^ 16 then some (BitVec.ofNat 16 n) else none

/-- WRRAW i, s[0]; WRRAW i+1, s[1]; … (LOADBITS, R95). -/
def loadFrom (i : Nat) : List Bool → List HostOp
  | [] => []
  | b :: bs => .xfer (wrRawWord (BitVec.ofNat 16 i) b) :: loadFrom (i + 1) bs

/-- The word of RDTEXT n. -/
def rdTextWord (n : Reg) : Ht35 := ht35Word 0 2 n 0

/-- The host operations an operation stands for; none when an operand does not fit its field. DECODE Tn and WR CMD, 0x001n are
the same word (R94). -/
def assemble : AsmOp → Option (List HostOp)
  | .rd r => (fieldOf r).map fun a => [.xfer (ht35Word 0 0 a 0)]
  | .wr r v => (fieldOf r).bind fun a => (fieldOf v).map fun d => [.xfer (ht35Word 1 0 a d)]
  | .decode t => if 1 ≤ t ∧ t ≤ 3 then some [.xfer (ht35Word 1 0 0 (decodeCommandWord (BitVec.ofNat 2 t)))] else none
  | .wrraw i b => (fieldOf i).map fun a => [.xfer (wrRawWord a b)]
  | .rdraw i => (fieldOf i).map fun a => [.xfer (ht35Word 0 1 a 0)]
  | .rdtext n => (fieldOf n).map fun a => [.xfer (rdTextWord a)]
  | .wait => some [.wait]
  | .append b => some [.append b]
  | .loadbits bs => (fieldOf bs.length).map fun k => loadFrom 0 bs ++ [.xfer (wrCountWord k)]
  | .rdstr n =>
    if n ≤ 2 ^ 16 then some ((List.range n).map fun k => .xfer (rdTextWord (BitVec.ofNat 16 k))) else none

/-! ## Reading one line -/

/-- The words of a line, with ',' and ':' as words of their own; '#' starts a comment (R94). -/
def lexLine : List Char → List Char → List (List Char)
  | [], word => if word.isEmpty then [] else [word]
  | c :: cs, word =>
    let done : List (List Char) := if word.isEmpty then [] else [word]
    if c = '#' then done
    else if c = ' ' ∨ c = '\t' then done ++ lexLine cs []
    else if c = ',' ∨ c = ':' then done ++ [c] :: lexLine cs []
    else lexLine cs (word ++ [c])

/-- The value of a digit in a base up to 16. -/
def digitValue (base : Nat) (c : Char) : Option Nat :=
  let n := c.toNat
  let v := if 48 ≤ n ∧ n ≤ 57 then n - 48 else if 65 ≤ n ∧ n ≤ 70 then n - 55 else if 97 ≤ n ∧ n ≤ 102 then n - 87 else 16
  if v < base then some v else none

/-- Digits, most significant first, continuing a value. -/
def digitsValue (base : Nat) : List Char → Nat → Option Nat
  | [], n => some n
  | c :: cs, n => (digitValue base c).bind fun d => digitsValue base cs (n * base + d)

/-- num := decimal | '0x' hex (R94). -/
def parseNum : List Char → Option Nat
  | [] => none
  | ['0', 'x'] => none
  | '0' :: 'x' :: cs => digitsValue 16 cs 0
  | cs => digitsValue 10 cs 0

/-- reg := the name of a register or its number (R94, 20_memory.md R71). -/
def parseReg : List Char → Option Nat
  | ['C', 'M', 'D'] => some 0
  | ['S', 'T', 'A', 'T', 'U', 'S'] => some 1
  | ['C', 'O', 'U', 'N', 'T'] => some 2
  | ['L', 'E', 'N', 'G', 'T', 'H'] => some 3
  | ['E', 'R', 'R', 'I', 'D', 'X'] => some 4
  | ['S', 'S', 'P', 'O', 'S'] => some 5
  | ['E', 'N', 'D', 'P', 'O', 'S'] => some 6
  | ['L', 'R', 'C'] => some 7
  | cs => parseNum cs

/-- '0' or '1' as a bit. -/
def parseBit : List Char → Option Bool
  | ['0'] => some false
  | ['1'] => some true
  | _ => none

/-- The characters 0 and 1 up to a closing double quote. -/
def parseBits : List Char → Option (List Bool)
  | ['"'] => some []
  | '0' :: cs => (parseBits cs).map (false :: ·)
  | '1' :: cs => (parseBits cs).map (true :: ·)
  | _ => none

/-- The operation that a line's words spell (R94, R95). -/
def parseOp : List (List Char) → Option AsmOp
  | [['R', 'D'], r] => (parseReg r).map .rd
  | [['W', 'R'], r, [','], v] => (parseReg r).bind fun a => (parseNum v).map (.wr a)
  | [['D', 'E', 'C', 'O', 'D', 'E'], ['T', '1']] => some (.decode 1)
  | [['D', 'E', 'C', 'O', 'D', 'E'], ['T', '2']] => some (.decode 2)
  | [['D', 'E', 'C', 'O', 'D', 'E'], ['T', '3']] => some (.decode 3)
  | [['W', 'R', 'R', 'A', 'W'], i, [','], b] => (parseNum i).bind fun n => (parseBit b).map (.wrraw n)
  | [['R', 'D', 'R', 'A', 'W'], i] => (parseNum i).map .rdraw
  | [['R', 'D', 'T', 'E', 'X', 'T'], n] => (parseNum n).map .rdtext
  | [['W', 'A', 'I', 'T']] => some .wait
  | [['A', 'P', 'P', 'E', 'N', 'D'], b] => (parseBit b).map .append
  | [['L', 'O', 'A', 'D', 'B', 'I', 'T', 'S'], '"' :: s] => (parseBits s).map .loadbits
  | [['R', 'D', 'S', 'T', 'R'], n] => (parseNum n).map .rdstr
  | _ => none

/-- A word that can stand as a label or as the name of a read's result: any but the separators. R94 does not say what a name
is; log 21. -/
def isName (w : List Char) : Bool := w != [','] && w != [':'] && w != ['-', '>']

/-- The operations that return one value, after whose operand a name may stand (R94). -/
def isReadOp : List Char → Bool
  | ['R', 'D'] | ['R', 'D', 'R', 'A', 'W'] | ['R', 'D', 'T', 'E', 'X', 'T'] => true
  | _ => false

/-- A line's words without its label (R94: [label ':'] before the operation). -/
def stripLabel : List (List Char) → List (List Char)
  | w :: [':'] :: ws => if isName w then ws else w :: [':'] :: ws
  | ws => ws

/-- A read's words without the name given to its result (R94: "-> name" after the operand). -/
def stripResult : List (List Char) → List (List Char)
  | [op, a, ['-', '>'], name] => if isReadOp op && isName name then [op, a] else [op, a, ['-', '>'], name]
  | ws => ws

/-- A line's words without the names that no transaction carries. A label or a "->" anywhere else stays, and the line is then
none of the syntax. That the names are dropped is the model's choice; log 21. -/
def stripNames (ws : List (List Char)) : List (List Char) := stripResult (stripLabel ws)

/-- The host operations of one source line: none of them for a line without an operation; no answer for a line that is not of
the syntax (R94). -/
def assembleLine (line : List Char) : Option (List HostOp) :=
  match stripNames (lexLine line []) with
  | [] => some []
  | ws => (parseOp ws).bind assemble

/-- The host program of a list of lines, in order. -/
def assembleProgram : List (List Char) → Option (List HostOp)
  | [] => some []
  | l :: ls => (assembleLine l).bind fun ops => (assembleProgram ls).map (ops ++ ·)

end Sys2Proof.Machine
end

