-- ==== Sys2Proof/Machine/Source.lean ====
section
/-! DEFINITION. The source's call decode(raw_bits, track) -> DecodeResult as one pure function of a bit sequence, written over
lists without the machine's buffers, cursors or stages (47_host_commands.md introduction and R197; the stages' rules R121, R130,
R146, R160 to R164). The machine's five stages are to agree with it. -/

namespace Sys2Proof.Machine

/-- DecodeResult: text, length, direction, valid (10_state.md introduction), and the failure reason (47_host_commands.md R197). -/
structure DecodeResult where
  asciiText : Option (List Byte)
  length : Int
  direction : ReadDirection
  valid : Bool
  reason : Reason
deriving DecidableEq, Repr

/-- The value of bits given least significant first. -/
def bitsValue : List Bool → Nat
  | [] => 0
  | b :: bs => b.toNat + 2 * bitsValue bs

/-- The number of ones in a bit sequence is odd. -/
def bitsOdd (bs : List Bool) : Bool := bs.count true % 2 == 1

/-- The rest of the sequence from the first whole window whose data bits are the start sentinel's. -/
def sourceLocate (f : Format) : List Bool → Option (List Bool)
  | [] => none
  | b :: bs =>
    if f.width ≤ (b :: bs).length ∧ bitsValue ((b :: bs).take f.dataBits) = f.ss.toNat then some (b :: bs)
    else sourceLocate f bs

/-- The outcome of reading characters: the data values and the bits after the end sentinel, or a failure reason. -/
inductive SourceChars where
  | text (values : List Nat) (rest : List Bool)
  | failed (why : Reason)
deriving DecidableEq, Repr

/-- One more data value in front. -/
def SourceChars.push (v : Nat) : SourceChars → SourceChars
  | .text vs rest => .text (v :: vs) rest
  | .failed why => .failed why

/-- The characters after the start sentinel, up to the end sentinel, for at most `fuel` characters. -/
def sourceChars (f : Format) : Nat → List Bool → SourceChars
  | 0, _ => .failed .truncated
  | fuel + 1, bs =>
    if bs.length < f.width then .failed .truncated
    else if !bitsOdd (bs.take f.width) then .failed .parityError
    else if bitsValue (bs.take f.dataBits) = f.es.toNat then .text [] (bs.drop f.width)
    else (sourceChars f fuel (bs.drop f.width)).push (bitsValue (bs.take f.dataBits))

/-- The sequence from the start sentinel on: its own parity, then the characters (44_character_framer.md R145). -/
def sourceFrames (f : Format) (bs : List Bool) : SourceChars :=
  if !bitsOdd (bs.take f.width) then .failed .parityError else sourceChars f bs.length (bs.drop f.width)

/-- The bits of the LRC character: the XOR of the data values, least significant first, and its odd-parity bit (R160, R161). -/
def sourceLrc (f : Format) (values : List Nat) : List Bool :=
  let x := values.foldl (· ^^^ ·) 0
  let data := (List.range f.dataBits).map x.testBit
  data ++ [!bitsOdd data]

/-- A character as it stands on the track: D data bits, least significant first, and the odd-parity bit (30_encoding.md R84). -/
def sourceChar (f : Format) (v : Nat) : List Bool :=
  let data := (List.range f.dataBits).map v.testBit
  data ++ [!bitsOdd data]

/-- A whole track in write order: start sentinel, data characters, end sentinel, LRC character (45_lrc_engine.md R163). -/
def sourceTrack (f : Format) (values : List Nat) : List Bool :=
  sourceChar f f.ss.toNat ++ values.flatMap (sourceChar f) ++ sourceChar f f.es.toNat ++ sourceLrc f values

/-- The result of one orientation in which a start sentinel was found. -/
def sourceResult (f : Format) (d : ReadDirection) (bs : List Bool) : DecodeResult :=
  match sourceFrames f bs with
  | .failed why => { asciiText := none, length := -1, direction := d, valid := false, reason := why }
  | .text values rest =>
    let ok := rest.take f.width == sourceLrc f values
    { asciiText := some (values.map fun v => BitVec.ofNat 8 (v + f.off.toNat))
      length := values.length
      direction := d
      valid := ok
      reason := if ok then .noReason else .checksumMismatch }

/-- decode(raw_bits, track): forward first, then the reversal of a copy, else NoSentinel. -/
def sourceDecode (f : Format) (bits : List Bool) : DecodeResult :=
  match sourceLocate f bits with
  | some bs => sourceResult f .forward bs
  | none =>
    match sourceLocate f bits.reverse with
    | some bs => sourceResult f .backward bs
    | none => { asciiText := none, length := -1, direction := .unknown, valid := false, reason := .noSentinel }

/-- The four result fields as EXT reads them after WAIT, and the reason (R197). -/
def State.decodeResult (s : State) : DecodeResult where
  asciiText := if s.seq = .done then some ((List.range s.length.toNat).map s.textByte) else none
  length := s.length.toInt
  direction := s.dir
  valid := s.valid
  reason := s.reason

end Sys2Proof.Machine
end

