-- ==== Sys2Proof/Machine/Work.lean ====
section
/-! DEFINITION. The work of each stage as 70_reset_and_hazards.md R239 counts it: window compares, bit copies into WORK, frames
examined. "These are bounds on work, not on cycles": no step reads these numbers. Log 18. -/

namespace Sys2Proof.Machine

/-- The windows LOCATE tests: up to and including the match, or all of them (43_sentinel_locator.md R130, R131). -/
def locateCompares (bit : Nat → Bool) (n : Nat) (f : Format) : Nat :=
  match locate bit n f with
  | some p => p + 1
  | none => n + 1 - f.width

/-- DETECT's window compares: the forward search, then the backward one if that fails. -/
def State.detectCompares (s : State) (f : Format) : Nat :=
  locateCompares s.copyRaw.workBit s.count.toNat f +
    match s.copyRaw.locateInWork f with
    | some _ => 0
    | none => locateCompares s.copyRaw.copyRawReversed.workBit s.count.toNat f

/-- DETECT's bit copies into WORK: the bits of each sequence it copies. -/
def State.detectCopies (s : State) (f : Format) : Nat :=
  s.capturedBits.length +
    match s.copyRaw.locateInWork f with
    | some _ => 0
    | none => s.copyRaw.reversedBits.length

/-- NORMLOC's window compares. -/
def State.normlocCompares (s : State) (f : Format) : Nat := locateCompares s.normalize.workBit s.count.toNat f

/-- NORMLOC's bit copies into WORK: the bits of the sequence NORMALIZE copies (42_bit_reversal.md R122). -/
def State.normlocCopies (s : State) : Nat :=
  match s.dir with
  | .backward => s.reversedBits.length
  | .forward => s.capturedBits.length
  | .unknown => s.capturedBits.length

/-- The frames LRC_CHECK examines: the LRC frame, where one is present (45_lrc_engine.md R162). -/
def State.lrcFrames (s : State) (f : Format) : Nat := if s.lrcPresent f then 1 else 0

/-- The character positions DECODE_CHARS examines: the indices 0 to that of the last pass (44_character_framer.md R152). -/
def State.framesExamined (s : State) (f : Format) : Nat :=
  match s.frameChars f with
  | .ended r => r.idx + 1
  | .failed _ r => r.idx + 1

end Sys2Proof.Machine
end

