-- ==== Sys2Proof/Safety.lean ====
section
/-! DEFINITION. What counts as a safe run, in the terms claims use: launch states, the end of a run and its observation, the
premises on EXT, runs of the ENGINE alone, and the invariant every step keeps. -/

namespace Sys2Proof.Machine

/-! ## The two kinds of instruction (92_eei_decisions.md D1) -/

/-- A host transaction, format HT35. -/
def hostInstr (i : Instr) : Bool :=
  match encode i with
  | .ht35 _ => true
  | .stage _ => false

/-- A read transaction: RD, RDRAW, RDTEXT. -/
def readInstr (i : Instr) : Bool :=
  match encode i with
  | .ht35 w => ht35Rw w == 0
  | .stage _ => false

/-! ## Runs (70_reset_and_hazards.md R236, R240) -/

/-- A launch state: BUSY = 0 and REFUSED = 0 (R240). -/
def State.launch (s : State) : Prop := s.busy = false ∧ s.refused = false

/-- A run has ended: EXT has issued every transaction and the ENGINE has no step (R240). -/
def State.ended (s : State) : Prop := s.program = [] ∧ s.busy = false

/-- O2, CAPTURE_COMPLETE: every bit below COUNT has been written since the last reset (R236). -/
def State.captureComplete (s : State) : Prop := ∀ i, i < s.count.toNat → (Memory.read s.raw i).isSome = true

/-- The observation at the end of a run (R240). -/
structure Observation where
  status : Reg
  count : Reg
  length : Reg
  erridx : Reg
  sspos : Reg
  endpos : Reg
  lrc : Reg
  text : List Byte
  reads : List Reg
  refused : Bool
deriving DecidableEq, Repr

/-- What the end of a run shows: REG 0x0001 to 0x0007, TEXT[0..LENGTH-1] in DONE, the reads' values, the mark (R240). -/
def State.observe (s : State) : Observation where
  status := s.statusWord
  count := s.count
  length := s.length
  erridx := s.erridx
  sspos := s.sspos
  endpos := s.endpos
  lrc := s.lrc
  text := if s.seq = .done then (List.range s.length.toNat).map s.textByte else []
  reads := s.reads
  refused := s.refused

/-- The ENGINE alone: k steps of the stages that STATUS.STATE selects, resting where none is selected (46_sequencer.md R170). -/
def engineRun : Nat → State → Result
  | 0, s => .next s
  | k + 1, s =>
    match decodeStage s.seq.code with
    | .error _ => .next s
    | .ok i =>
      match exec i s with
      | .next t => engineRun k t
      | .fault r => .fault r
      | .refused r => .refused r

/-! ## Data characters of a track, by index (44_character_framer.md R150) -/

/-- The frame at character index k: the frame at SSPOS + k*W (R150). -/
def State.charFrame (s : State) (f : Format) (k : Nat) : Frame := frame s.workBit (s.sspos.toNat + k * f.width) f.width

/-- The data value at character index k. -/
def State.charValue (s : State) (f : Format) (k : Nat) : DataVal := dataField (s.charFrame f k) f.dataBits

/-- The frame at character index k lies within COUNT. -/
def State.charFits (s : State) (f : Format) (k : Nat) : Prop := s.sspos.toNat + (k + 1) * f.width ≤ s.count.toNat

/-- The frame at character index k lies within COUNT, has odd parity and, for k >= 1, is not the end sentinel: DECODE_CHARS
goes past it (R146). -/
def State.charPassed (s : State) (f : Format) (k : Nat) : Prop :=
  s.charFits f k ∧ oddParity (s.charFrame f k) f.width = true ∧ (1 ≤ k → s.charValue f k ≠ f.es)

/-- The XOR of the data values at character indices 1 to n (45_lrc_engine.md R160). -/
def State.xorOfChars (s : State) (f : Format) : Nat → DataVal
  | 0 => 0
  | n + 1 => s.xorOfChars f n ^^^ s.charValue f (n + 1)

/-! ## The invariant -/

/-- The parameter's range and the source's "count ≤ capacity" (00_scope.md R6, 10_state.md R32). -/
def State.paramInv (s : State) : Prop := 1 ≤ s.cap ∧ s.cap ≤ 65535 ∧ s.count.toNat ≤ s.cap

/-- The buffers are in canonical form and within their capacities (20_memory.md R60). -/
def State.bufferInv (s : State) : Prop :=
  Memory.wf s.raw = true ∧ Memory.wf s.work = true ∧ Memory.wf s.text = true ∧
  Memory.below s.cap s.raw = true ∧ Memory.below s.cap s.work = true ∧ Memory.below s.outCap s.text = true

/-- The results that acceptance clears and DECODE_CHARS and LRC_CHECK write are still 0 (10_state.md R36, R37, R42, R43). -/
def State.lateResultsClear (s : State) : Prop := s.endpos = 0 ∧ s.lrc = 0 ∧ s.acc = 0 ∧ s.ndata = 0

/-- What fail() and PUBLISH write is still as acceptance left it (10_state.md R28, R33, R34). -/
def State.unpublished (s : State) : Prop := s.reason = .noReason ∧ s.length = 0 ∧ s.erridx = 0

/-- DECODE_CHARS ended well: a direction is known, ENDPOS is just past the end sentinel at index NDATA + 1, and TEXT holds a
written byte for each data character (44_character_framer.md R146, R149, R150). -/
def State.charsReady (s : State) (f : Format) : Prop :=
  s.dir ≠ .unknown ∧ s.endpos.toNat = s.sspos.toNat + (s.ndata.toNat + 2) * f.width ∧
  ∀ n, n < s.ndata.toNat → (Memory.read s.text n).isSome = true

/-- What each sequencer state says of the result state: 10_state.md R25 to R37 and the table of 46_sequencer.md R176. -/
def State.resultInv (s : State) : Prop :=
  match s.seq with
  | .idle =>
    s.trk = .noTrack ∧ s.dir = .unknown ∧ s.valid = false ∧ s.sspos = 0 ∧ s.unpublished ∧ s.lateResultsClear
  | .accepted =>
    s.trk ≠ .noTrack ∧ s.dir = .unknown ∧ s.valid = false ∧ s.sspos = 0 ∧ s.unpublished ∧ s.lateResultsClear
  | .directionDetected =>
    s.dir ≠ .unknown ∧ s.valid = false ∧ s.sspos = 0 ∧ s.unpublished ∧ s.lateResultsClear ∧
    ∃ f p, s.trk.format = some f ∧ s.normalize.locateInWork f = some p
  | .sentinelFound =>
    s.dir ≠ .unknown ∧ s.valid = false ∧ s.unpublished ∧ s.lateResultsClear ∧
    ∃ f, s.trk.format = some f ∧ s.locateInWork f = some s.sspos.toNat
  | .charactersDecoded =>
    s.valid = false ∧ s.lrc = 0 ∧ s.unpublished ∧
    ∃ f, s.trk.format = some f ∧ s.charsReady f ∧ s.endpos.toNat ≤ s.count.toNat
  | .checksumChecked =>
    s.unpublished ∧
    ∃ f, s.trk.format = some f ∧ s.charsReady f ∧ s.endpos.toNat ≤ s.count.toNat ∧
      s.lrc = lrcLayout (s.lrcObserved f) (s.lrcPresent f) (lrcExpected f s.acc) ∧ s.valid = s.lrcMatch f
  | .done =>
    s.length = s.ndata ∧ s.erridx = 0 ∧ s.reason = (if s.valid then .noReason else .checksumMismatch) ∧
    (s.valid = true → s.lrc.getLsbD 7 = true) ∧
    ∃ f, s.trk.format = some f ∧ s.charsReady f
  | .failed =>
    s.trk ≠ .noTrack ∧ s.valid = false ∧ s.length = 0xFFFF ∧ s.lateResultsClear ∧
    ((s.reason = .noSentinel ∧ s.dir = .unknown ∧ s.sspos = 0 ∧ s.erridx = 0) ∨
     ((s.reason = .parityError ∨ s.reason = .truncated) ∧ s.dir ≠ .unknown))

/-- "For FourBit, ACC[5:4] stays 0" (10_state.md R42). -/
def State.accInv (s : State) : Prop := s.trk.format = some .fourBit → s.acc.toNat < 16

/-- The invariant: the parameter's range, the buffers' form, the result state of each sequencer state, ACC's high bits. -/
def State.Inv (s : State) : Prop := s.paramInv ∧ s.bufferInv ∧ s.resultInv ∧ s.accInv

end Sys2Proof.Machine
end

