-- ==== Sys2Proof/Certificates/Slice0/Obligations.lean ====
section
/-! DEFINITION. The statements for the provers, from the numbered rules of spec/. -/

open Sys2Proof Sys2Proof.Machine

/-! ## Encoding -/

/-- Decoding the word of any instruction, at every operand, gives the instruction back (30_encoding.md sections 1, 2, 5). -/
def Obligations.DecodeOfEncodeIsTheInstruction : Prop :=
  ∀ i : Instr, decode (encode i) = .ok i

/-- Each accepted word is the word of the instruction it decodes to, so an instruction has one word (30_encoding.md R93, R94). -/
def Obligations.EncodeOfDecodeIsTheWord : Prop :=
  ∀ (e : Encoded) (i : Instr), decode e = .ok i → encode i = e

/-- A host word names an instruction exactly when it matches a row of the opcode table; every other word is refused
(30_encoding.md section 1: "Every HT35 word that does not match a row of `opcode_table.json` is refused"). -/
def Obligations.HostWordDecodesIffItFitsATableRow : Prop :=
  ∀ w : Ht35, (∃ i, decodeHt35 w = .ok i) ↔ ∃ r ∈ ht35Rows, r.fits w.toNat = true

/-- No host word and no stage code matches two rows of the opcode table. -/
def Obligations.NoWordFitsTwoTableRows : Prop :=
  ∀ e : Encoded, (rowsFitting e).length ≤ 1

/-- The rejections of 30_encoding.md R91 items 1 to 5, 7 (DATA) and 9, each by its name. -/
def Obligations.RefusedEncodingsAreRejectedByName : Prop :=
  ∀ w : Ht35,
    (ht35Space w = 3 → decodeHt35 w = .error .reservedSpace) ∧
    (ht35Space w ≠ 3 → ht35Rw w = 0 → ht35Data w ≠ 0 → decodeHt35 w = .error .readWithData) ∧
    (ht35Space w = 0 → ht35Rw w = 0 → ht35Data w = 0 → 8 ≤ (ht35Addr w).toNat →
      decodeHt35 w = .error .reservedRegister) ∧
    (ht35Space w = 0 → ht35Rw w = 1 → 8 ≤ (ht35Addr w).toNat → decodeHt35 w = .error .reservedRegister) ∧
    (ht35Space w = 0 → ht35Rw w = 1 → (ht35Addr w).toNat < 8 → ht35Addr w ≠ 0 → ht35Addr w ≠ 2 →
      decodeHt35 w = .error .readOnlyRegister) ∧
    (ht35Space w = 0 → ht35Rw w = 1 → ht35Addr w = 0 →
      ((ht35Data w).toNat / 256 ≠ 0 ∨ (ht35Data w).toNat / 4 % 4 ≠ 0 ∨ (ht35Data w).toNat / 16 % 16 ≠ 1) →
      decodeHt35 w = .error .reservedCommand) ∧
    (ht35Space w = 0 → ht35Rw w = 1 → ht35Addr w = 0 → ht35Data w = 0x0010 → decodeHt35 w = .error .reservedTrack) ∧
    (ht35Space w = 1 → ht35Rw w = 1 → 2 ≤ (ht35Data w).toNat → decodeHt35 w = .error .badRawData) ∧
    (ht35Space w = 2 → ht35Rw w = 1 → decodeHt35 w = .error .textWrite)

/-- A few words of the opcode table and of V-HOST, written out from 30_encoding.md R80 to R83, decode to their instructions. -/
def Obligations.TableWordsDecodeAsWritten : Prop :=
  decodeHt35 0x000010000 = .ok .rdStatus ∧ decodeHt35 0x400000012 = .ok .decodeT2 ∧
  decodeHt35 0x40002012C = .ok (.wrCount 300) ∧ decodeHt35 0x5012B0001 = .ok (.wrRaw 299 true) ∧
  decodeHt35 0x100040000 = .ok (.rdRaw 4) ∧ decodeHt35 0x200030000 = .ok (.rdText 3) ∧
  decodeStage 0b011 = .ok .decodeChars ∧ decodeStage 0b110 = .error .noEngineStage

/-! ## Parity, characters, reversal -/

/-- 44_character_framer.md R142, corner case 3: flipping one bit of a frame changes the parity test, flipping two never does. -/
def Obligations.OneFlipChangesParityTwoKeepIt : Prop :=
  ∀ (c : Frame) (W j k : Nat), W ≤ 7 → j < W → k < W →
    oddParity (c ^^^ (1 <<< k)) W = !oddParity c W ∧
    (j ≠ k → oddParity (c ^^^ (1 <<< k) ^^^ (1 <<< j)) W = oddParity c W)

/-- 45_lrc_engine.md R161: the data bits of LRC_EXP are x = ACC[D-1:0], its parity bit is ODDBIT(x) and makes the whole frame
odd, nothing stands above bit W-1, and with ACC = 0 it is 1 << D. The last clause is an inference that R161 itself marks as
derived ("With no data characters, x = 0 and LRC_EXP = 1 << D"). -/
def Obligations.ExpectedLrcIsTheXorWithOddParity : Prop :=
  ∀ (f : Format) (acc : DataVal),
    dataField (lrcExpected f acc) f.dataBits = (acc.setWidth f.dataBits).setWidth 6 ∧
    parityBit (lrcExpected f acc) f.dataBits = oddBit ((acc.setWidth f.dataBits).setWidth 6) ∧
    oddParity (lrcExpected f acc) f.width = true ∧
    (lrcExpected f acc).toNat < 2 ^ f.width ∧
    lrcExpected f 0 = 1 <<< f.dataBits

/-- The character code of 30_encoding.md R85 and R86 and the sum of 44_character_framer.md R143: each data value's character on
the track has odd parity and carries the value, and its ASCII byte is the value plus OFF with no carry. -/
def Obligations.CharacterCodeOfEveryDataValue : Prop :=
  ∀ (f : Format) (v : DataVal), v.toNat < 2 ^ f.dataBits →
    let c := frame (fun k => (sourceChar f v.toNat).getD k false) 0 f.width
    oddParity c f.width = true ∧ dataField c f.dataBits = v ∧ parityBit c f.dataBits = oddBit v ∧
    (asciiByte f v).toNat = v.toNat + f.off.toNat ∧
    (asciiByte f v).toNat ≤ (match f with | .sixBit => 0x5F | .fourBit => 0x3F)

/-- 42_bit_reversal.md R124, items 1 to 4: REVERSE is an involution, keeps the count of ones, turns a stream of k frames into the
reversed frames in reverse order, and keeps each frame's parity. -/
def Obligations.ReversalInvolutesAndReversesFrames : Prop :=
  (∀ b : List Bool,
    let r := reverseBits (fun i => b.getD i false) b.length
    reverseBits (fun i => r.getD i false) b.length = b ∧ r.count true = b.count true) ∧
  (∀ (bit : Nat → Bool) (W k j : Nat), W ≤ 7 → j < k →
    let rev := fun i => (reverseBits bit (k * W)).getD i false
    (∀ q, q < W → rev (j * W + q) = bit ((k - 1 - j) * W + (W - 1 - q))) ∧
    oddParity (frame rev (j * W) W) W = oddParity (frame bit ((k - 1 - j) * W) W) W)

/-! ## The engine stages -/

/-- DETECT under a latched format, in every state (41_direction_detector.md R110 to R113): the forward search on RAW as captured
decides first; only if it fails the search on the reversed bits; else fail(NO_SENTINEL, 0) with DIR = UNKNOWN. WORK below COUNT
holds the copy in the orientation last tried, WORK above it is untouched, and no other state changes. -/
def Obligations.DetectTriesForwardThenBackward : Prop :=
  ∀ (s : State) (f : Format), s.trk.format = some f →
    let n := s.count.toNat
    let back := fun i => s.rawBit (n - 1 - i)
    ∃ t, exec .detect s = .next t ∧
      t = { s with work := t.work, dir := t.dir, seq := t.seq, reason := t.reason, valid := t.valid,
                   length := t.length, erridx := t.erridx } ∧
      (∀ i, n ≤ i → t.workBit i = s.workBit i) ∧
      ((∃ p, locate s.rawBit n f = some p ∧ t.dir = .forward ∧ t.seq = .directionDetected ∧ t.reason = s.reason ∧
          t.valid = s.valid ∧ t.length = s.length ∧ t.erridx = s.erridx ∧ ∀ i, i < n → t.workBit i = s.rawBit i) ∨
       (locate s.rawBit n f = none ∧ ∃ p, locate back n f = some p ∧ t.dir = .backward ∧ t.seq = .directionDetected ∧
          t.reason = s.reason ∧ t.valid = s.valid ∧ t.length = s.length ∧ t.erridx = s.erridx ∧
          ∀ i, i < n → t.workBit i = back i) ∨
       (locate s.rawBit n f = none ∧ locate back n f = none ∧ t.dir = .unknown ∧ t.seq = .failed ∧
          t.reason = .noSentinel ∧ t.valid = false ∧ t.length = 0xFFFF ∧ t.erridx = 0 ∧
          ∀ i, i < n → t.workBit i = back i))

/-- NORMLOC (43_sentinel_locator.md R131 to R133, R135): if some whole window of the normalized bits has the start sentinel's
data bits, SSPOS is the leftmost such offset, WORK below COUNT is the normalized sequence, WORK above it is untouched, and no
other state changes. -/
def Obligations.NormlocWritesTheLeftmostSentinelOffset : Prop :=
  ∀ (s : State) (f : Format), s.trk.format = some f →
    let n := s.count.toNat
    let bit := fun i => if s.dir = .backward then s.rawBit (n - 1 - i) else s.rawBit i
    let hit := fun p => dataField (frame bit p f.width) f.dataBits = f.ss
    (∃ p, p + f.width ≤ n ∧ hit p) →
    ∃ t, exec .normloc s = .next t ∧
      t = { s with work := t.work, sspos := t.sspos, seq := .sentinelFound } ∧
      t.sspos.toNat + f.width ≤ n ∧ hit t.sspos.toNat ∧ (∀ q, q < t.sspos.toNat → ¬ hit q) ∧
      (∀ i, i < n → t.workBit i = bit i) ∧ (∀ i, n ≤ i → t.workBit i = s.workBit i)

/-- NORMLOC stops in the fault that 43_sentinel_locator.md R136 asks for exactly when no whole window matches. -/
def Obligations.NormlocFaultsOnlyWithoutASentinel : Prop :=
  ∀ (s : State) (f : Format), s.trk.format = some f →
    let n := s.count.toNat
    let bit := fun i => if s.dir = .backward then s.rawBit (n - 1 - i) else s.rawBit i
    (exec .normloc s = .fault .sentinelLost ↔
      ∀ p, p + f.width ≤ n → dataField (frame bit p f.width) f.dataBits ≠ f.ss)

/-- 43_sentinel_locator.md R136 with 42_bit_reversal.md R122: after a successful DETECT, NORMLOC always finds a sentinel, at the
offset DETECT found, and leaves in WORK the very bits DETECT left there. For bits below COUNT that nobody wrote since reset this
rests on the model's stable draw of RAW (log 2). -/
def Obligations.NormlocAfterDetectFindsTheSameOffset : Prop :=
  ∀ (s t : State), exec .detect s = .next t → t.seq = .directionDetected →
    ∃ f u, s.trk.format = some f ∧ exec .normloc t = .next u ∧ u.seq = .sentinelFound ∧
      locate t.workBit t.count.toNat f = some u.sspos.toNat ∧ ∀ i, u.workBit i = t.workBit i

/-- DECODE_CHARS on k data characters between the sentinels (44_character_framer.md R143 to R146, R149 to R151, 45_lrc_engine.md
R160): the frames at indices 0 to k are passed and the one at k+1 is the end sentinel. ENDPOS is just past it, NDATA = k, ACC is
the XOR of the k data values, TEXT[n] is the ASCII byte of the (n+1)-th character, every other byte of TEXT and all other state
is unchanged. -/
def Obligations.DecodeCharsReachesTheEndSentinel : Prop :=
  ∀ (s : State) (f : Format) (k : Nat), s.trk.format = some f →
    (∀ j, j ≤ k → s.charPassed f j) → s.charFits f (k + 1) →
    oddParity (s.charFrame f (k + 1)) f.width = true → s.charValue f (k + 1) = f.es →
    ∃ t, exec .decodeChars s = .next t ∧
      t = { s with text := t.text, endpos := t.endpos, ndata := t.ndata, acc := t.acc, seq := .charactersDecoded } ∧
      t.endpos.toNat = s.sspos.toNat + (k + 2) * f.width ∧ t.ndata.toNat = k ∧ t.acc = s.xorOfChars f k ∧
      (∀ n, n < k → t.textByte n = asciiByte f (s.charValue f (n + 1))) ∧
      (∀ n, k ≤ n → t.textByte n = s.textByte n)

/-- PARITY_ERROR (44_character_framer.md R148): the frame at index j is the first that is not passed, it lies within COUNT and
its parity is even. fail(PARITY_ERROR, j); the bytes of the data characters before it are in TEXT, all other bytes and all other
state are unchanged. -/
def Obligations.DecodeCharsFailsAtTheFirstEvenFrame : Prop :=
  ∀ (s : State) (f : Format) (j : Nat), s.trk.format = some f →
    (∀ i, i < j → s.charPassed f i) → s.charFits f j → oddParity (s.charFrame f j) f.width = false →
    ∃ t, exec .decodeChars s = .next t ∧
      t = { s with text := t.text, reason := .parityError, erridx := BitVec.ofNat 16 j, valid := false,
                   length := 0xFFFF, seq := .failed } ∧
      t.erridx.toNat = j ∧
      (∀ n, n + 1 < j → t.textByte n = asciiByte f (s.charValue f (n + 1))) ∧
      (∀ n, j ≤ n + 1 → t.textByte n = s.textByte n)

/-- TRUNCATED (44_character_framer.md R147): the frames before index j are passed and fewer than W bits remain at frame j.
fail(TRUNCATED, j); TEXT and the rest as for PARITY_ERROR. -/
def Obligations.DecodeCharsFailsWhereBitsRunOut : Prop :=
  ∀ (s : State) (f : Format) (j : Nat), s.trk.format = some f →
    (∀ i, i < j → s.charPassed f i) → ¬ s.charFits f j →
    ∃ t, exec .decodeChars s = .next t ∧
      t = { s with text := t.text, reason := .truncated, erridx := BitVec.ofNat 16 j, valid := false,
                   length := 0xFFFF, seq := .failed } ∧
      t.erridx.toNat = j ∧
      (∀ n, n + 1 < j → t.textByte n = asciiByte f (s.charValue f (n + 1))) ∧
      (∀ n, j ≤ n + 1 → t.textByte n = s.textByte n)

/-- 44_character_framer.md R152: DECODE_CHARS always ends, at an index no greater than floor((COUNT - SSPOS) / W), in exactly one
of its three ways, whatever WORK holds, and it writes at most floor((COUNT - SSPOS) / W) - 1 bytes of TEXT, the lowest. -/
def Obligations.DecodeCharsAlwaysEndsWithinItsBound : Prop :=
  ∀ (s : State) (f : Format), s.trk.format = some f →
    ∃ t j, exec .decodeChars s = .next t ∧ j ≤ (s.count.toNat - s.sspos.toNat) / f.width ∧
      (∀ i, i < j → s.charPassed f i) ∧ s.framesExamined f = j + 1 ∧
      (∀ n, (s.count.toNat - s.sspos.toNat) / f.width ≤ n + 1 → t.textByte n = s.textByte n) ∧
      ((¬ s.charFits f j ∧ t.seq = .failed ∧ t.reason = .truncated) ∨
       (s.charFits f j ∧ oddParity (s.charFrame f j) f.width = false ∧ t.seq = .failed ∧ t.reason = .parityError) ∨
       (s.charFits f j ∧ oddParity (s.charFrame f j) f.width = true ∧ 1 ≤ j ∧ s.charValue f j = f.es ∧
         t.seq = .charactersDecoded ∧ t.ndata.toNat = j - 1))

/-- LRC_CHECK (45_lrc_engine.md R162, R164): the fields of the LRC register, VALID exactly when an LRC frame is present and all
its W bits equal LRC_EXP, and nothing else changed. -/
def Obligations.LrcCheckComparesTheWholeCharacter : Prop :=
  ∀ (s : State) (f : Format), s.trk.format = some f →
    let present := s.endpos.toNat + f.width ≤ s.count.toNat
    let obs := frame s.workBit s.endpos.toNat f.width
    ∃ t, exec .lrcCheck s = .next t ∧ t = { s with lrc := t.lrc, valid := t.valid, seq := .checksumChecked } ∧
      t.lrc.extractLsb' 0 7 = lrcExpected f s.acc ∧ t.lrc.getLsbD 15 = false ∧
      (present → t.lrc.getLsbD 7 = true ∧ t.lrc.extractLsb' 8 7 = obs ∧ (t.valid = true ↔ obs = lrcExpected f s.acc)) ∧
      (¬ present → t.lrc.getLsbD 7 = false ∧ t.lrc.extractLsb' 8 7 = 0 ∧ t.valid = false)

/-- PUBLISH (46_sequencer.md R174), in every state. -/
def Obligations.PublishWritesLengthAndReason : Prop :=
  ∀ s : State, exec .publish s = .next
    { s with length := s.ndata, reason := if s.valid = true then .noReason else .checksumMismatch, seq := .done }

/-- A stage that needs a format stops in the fault noFormat exactly when no track is latched (10_state.md R31: "No engine stage
runs with TRK = 0"; the fault is the model's, log 9). -/
def Obligations.StagesFaultWithoutALatchedTrack : Prop :=
  ∀ (s : State) (i : Instr), i = .detect ∨ i = .normloc ∨ i = .decodeChars ∨ i = .lrcCheck →
    (exec i s = .fault .noFormat ↔ s.trk = .noTrack)

/-! ## Host transactions -/

/-- RD while BUSY = 0 (47_host_commands.md R191; the layout of STATUS is 10_state.md R25): the register's value is returned and
nothing else changes. -/
def Obligations.RegisterReadsWhenNotBusy : Prop :=
  ∀ s : State, s.busy = false →
    exec .rdCmd s = .next { s with reads := s.reads ++ [0] } ∧
    exec .rdStatus s = .next { s with reads := s.reads ++
      [0#4 ++ s.trk.code ++ BitVec.ofBool s.valid ++ s.dir.code ++ s.reason.code ++ 0#1 ++ s.seq.code] } ∧
    exec .rdCount s = .next { s with reads := s.reads ++ [s.count] } ∧
    exec .rdLength s = .next { s with reads := s.reads ++ [s.length] } ∧
    exec .rdErridx s = .next { s with reads := s.reads ++ [s.erridx] } ∧
    exec .rdSspos s = .next { s with reads := s.reads ++ [s.sspos] } ∧
    exec .rdEndpos s = .next { s with reads := s.reads ++ [s.endpos] } ∧
    exec .rdLrc s = .next { s with reads := s.reads ++ [s.lrc] }

/-- Reads while BUSY = 1 (70_reset_and_hazards.md R237, 47_host_commands.md R191): STATE, BUSY and TRK of STATUS are true, its
VALID, DIR and REASON are the next three draws, bits [15:12] are 0; LENGTH, ERRIDX, SSPOS, ENDPOS, LRC and RDTEXT are the next
draw; each draw is used once. CMD and COUNT are true. That the draws are numbered, and that STATUS takes VALID, DIR and REASON
from its three in this order, are the model's choices (logs 3 and 14): R237 gives the draws no order. -/
def Obligations.ResultReadsWhileBusyAreDraws : Prop :=
  ∀ s : State, s.busy = true →
    (∃ v : Reg, exec .rdStatus s = .next { s with reads := s.reads ++ [v], draws := s.draws + 3 } ∧
      v.extractLsb' 0 3 = s.seq.code ∧ v.getLsbD 3 = true ∧ v.extractLsb' 4 3 = freeBits 3 (s.draws + 2) ∧
      v.extractLsb' 7 2 = freeBits 2 (s.draws + 1) ∧ v.extractLsb' 9 1 = freeBits 1 s.draws ∧
      v.extractLsb' 10 2 = s.trk.code ∧ v.extractLsb' 12 4 = 0) ∧
    (∀ i, i = .rdLength ∨ i = .rdErridx ∨ i = .rdSspos ∨ i = .rdEndpos ∨ i = .rdLrc ∨
        (∃ n : Reg, i = .rdText n ∧ n.toNat < s.outCap) →
      exec i s = .next { s with reads := s.reads ++ [freeBits 16 s.draws], draws := s.draws + 1 }) ∧
    exec .rdCmd s = .next { s with reads := s.reads ++ [0] } ∧
    exec .rdCount s = .next { s with reads := s.reads ++ [s.count] }

/-- DECODE (47_host_commands.md R190) while BUSY = 0: accepted from IDLE, DONE and FAILED alike; exactly the listed registers are
written. -/
def Obligations.DecodeIsAcceptedWhenNotBusy : Prop :=
  ∀ (s : State) (i : Instr) (t : TrackCode), s.busy = false →
    (i = .decodeT1 ∧ t = .t1) ∨ (i = .decodeT2 ∧ t = .t2) ∨ (i = .decodeT3 ∧ t = .t3) →
    exec i s = .next { s with
      trk := t, reason := .noReason, dir := .unknown, valid := false, length := 0, erridx := 0, sspos := 0, endpos := 0,
      lrc := 0, acc := 0, ndata := 0, seq := .accepted }

/-- O1 of 70_reset_and_hazards.md R236: a write of CMD, COUNT or RAW while BUSY = 1 is refused: the mark is set, nothing else
changes. -/
def Obligations.WritesWhileBusyAreRefused : Prop :=
  ∀ (s : State) (i : Instr), s.busy = true →
    i = .decodeT1 ∨ i = .decodeT2 ∨ i = .decodeT3 ∨ (∃ n, i = .wrCount n) ∨ (∃ a b, i = .wrRaw a b) →
    exec i s = .next { s with refused := true }

/-- WR COUNT (47_host_commands.md R192): refused while BUSY or above CAP, else COUNT <- v and nothing else. -/
def Obligations.CountWriteStoresUpToCapacity : Prop :=
  ∀ (s : State) (v : Reg),
    (s.busy = true ∨ s.cap < v.toNat → exec (.wrCount v) s = .next { s with refused := true }) ∧
    (s.busy = false → v.toNat ≤ s.cap → exec (.wrCount v) s = .next { s with count := v })

/-- WRRAW (47_host_commands.md R193): refused while BUSY or at i >= CAP, else RAW[i] <- b, every other bit of RAW and all other
state unchanged, and RAW stays in canonical form. -/
def Obligations.RawWriteStoresOneBit : Prop :=
  ∀ (s : State) (i : Reg) (b : Bool),
    (s.busy = true ∨ s.cap ≤ i.toNat → exec (.wrRaw i b) s = .next { s with refused := true }) ∧
    (s.busy = false → i.toNat < s.cap →
      ∃ t, exec (.wrRaw i b) s = .next t ∧ t = { s with raw := t.raw } ∧ t.rawBit i.toNat = b ∧
        (∀ j, j ≠ i.toNat → t.rawBit j = s.rawBit j) ∧ (Memory.wf s.raw = true → Memory.wf t.raw = true))

/-- RDRAW (47_host_commands.md R194), busy or not: refused at i >= CAP, else RAW[i] zero extended; a bit not written since reset
reads as the value that reset drew (log 2). -/
def Obligations.RawReadReturnsTheBitOrItsDraw : Prop :=
  ∀ (s : State) (i : Reg),
    (s.cap ≤ i.toNat → exec (.rdRaw i) s = .next { s with refused := true }) ∧
    (∀ b, i.toNat < s.cap → Memory.read s.raw i.toNat = some b →
      exec (.rdRaw i) s = .next { s with reads := s.reads ++ [if b = true then 1 else 0] }) ∧
    (i.toNat < s.cap → Memory.read s.raw i.toNat = none →
      exec (.rdRaw i) s =
        .next { s with reads := s.reads ++ [if Config.rawAtReset s.resets i.toNat = true then 1 else 0] })

/-- RDTEXT (47_host_commands.md R195): refused at n >= OUT_CAP = floor(CAP / 5), TEXT[n] zero extended in DONE below LENGTH
(signed), else a draw of 16 bits. -/
def Obligations.TextReadIsDefinedInDoneBelowLength : Prop :=
  ∀ (s : State) (n : Reg),
    (s.cap / 5 ≤ n.toNat → exec (.rdText n) s = .next { s with refused := true }) ∧
    (n.toNat < s.cap / 5 → s.seq = .done → (n.toNat : Int) < s.length.toInt →
      exec (.rdText n) s = .next { s with reads := s.reads ++ [(s.textByte n.toNat).setWidth 16] }) ∧
    (n.toNat < s.cap / 5 → (s.seq ≠ .done ∨ s.length.toInt ≤ (n.toNat : Int)) →
      exec (.rdText n) s = .next { s with reads := s.reads ++ [freeBits 16 s.draws], draws := s.draws + 1 })

/-- 20_memory.md R70: no read in any space has a side effect (it returns one value, or is refused), and repeating a write of
COUNT or RAW with the same value leaves the state unchanged. -/
def Obligations.ReadsHaveNoSideEffectsAndWritesRepeat : Prop :=
  (∀ (s t : State) (i : Instr), readInstr i = true → exec i s = .next t →
    (∃ v, t = { s with reads := s.reads ++ [v], draws := t.draws }) ∨ t = { s with refused := true }) ∧
  (∀ (s t : State) (i : Instr), (∃ n, i = .wrCount n) ∨ (∃ a b, i = .wrRaw a b) → exec i s = .next t →
    exec i t = .next t)

/-- No host transaction reaches WORK, ACC or NDATA (10_state.md R40, R42, R43): changing them changes no transaction's outcome in
any other respect, and only acceptance, which clears them, writes ACC and NDATA. -/
def Obligations.TransactionsCannotReachEngineRegisters : Prop :=
  ∀ (s t : State) (i : Instr) (w : List (Nat × Bool)) (a : DataVal) (m : Reg), hostInstr i = true → exec i s = .next t →
    t.work = s.work ∧
    ∃ t', exec i { s with work := w, acc := a, ndata := m } = .next t' ∧
      t' = { t with work := w, acc := t'.acc, ndata := t'.ndata } ∧
      ((t'.acc = a ∧ t'.ndata = m ∧ t.acc = s.acc ∧ t.ndata = s.ndata) ∨
       (t'.acc = 0 ∧ t'.ndata = 0 ∧ t.acc = 0 ∧ t.ndata = 0 ∧ t.seq = .accepted))

/-- 30_encoding.md R91 items 6, 7, 8 and 10 while BUSY = 0: a transaction whose operand is in range never sets the mark, one whose
operand is out of range sets it, busy or not, and changes nothing else. While BUSY = 1 the writes in range are refused as well
(WritesWhileBusyAreRefused). -/
def Obligations.RangeCheckedTransactionsAreRefused : Prop :=
  ∀ (s : State) (i : Instr), hostInstr i = true →
    (i.wellFormed s.cap = true → s.busy = false → ∃ t, exec i s = .next t ∧ t.refused = s.refused) ∧
    (i.wellFormed s.cap = false → exec i s = .next { s with refused := true })

/-! ## Status and reset -/

/-- The places of STATUS's fields and bits [15:12] = 0 (10_state.md R25); BUSY = 1 exactly in the five busy states and 0 exactly
in the other three (R27); its reset value is 0, an inference that R27 itself marks as derived. -/
def Obligations.StatusFieldsStandInTheirPlaces : Prop :=
  State.reset.busy = false ∧ ∀ s : State,
    (s.busy = false ↔ s.seq = .idle ∨ s.seq = .done ∨ s.seq = .failed) ∧
    s.statusWord.extractLsb' 0 3 = s.seq.code ∧ s.statusWord.getLsbD 3 = s.busy ∧
    s.statusWord.extractLsb' 4 3 = s.reason.code ∧ s.statusWord.extractLsb' 7 2 = s.dir.code ∧
    s.statusWord.getLsbD 9 = s.valid ∧ s.statusWord.extractLsb' 10 2 = s.trk.code ∧
    s.statusWord.extractLsb' 12 4 = 0 ∧
    (s.busy = true ↔ s.seq.code.toNat ∈ [1, 2, 3, 4, 5])

/-- 70_reset_and_hazards.md R230, R231, 10_state.md R44: a reset turn, busy or not, puts every register at its reset value and
leaves the buffers unwritten; the refusal mark and what is EXT's stay. -/
def Obligations.ResetTurnClearsTheBlock : Prop :=
  ∀ (s : State) (rest : List Turn), s.schedule = .reset :: rest →
    step s = .next { s with
      seq := .idle, reason := .noReason, dir := .unknown, valid := false, trk := .noTrack, count := 0, length := 0,
      erridx := 0, sspos := 0, endpos := 0, lrc := 0, acc := 0, ndata := 0, raw := [], work := [], text := [],
      resets := s.resets + 1, schedule := rest }

/-- 47_host_commands.md R191, corner case 3: after reset every readable register reads 0x0000, and the mark is clear. -/
def Obligations.EveryRegisterReadsZeroAfterReset : Prop :=
  (∀ i, i = .rdCmd ∨ i = .rdStatus ∨ i = .rdCount ∨ i = .rdLength ∨ i = .rdErridx ∨ i = .rdSspos ∨ i = .rdEndpos ∨
      i = .rdLrc →
    exec i State.reset = .next { State.reset with reads := [0] }) ∧
  State.reset.refused = false ∧ 1 ≤ State.reset.cap ∧ State.reset.cap ≤ 65535

/-! ## The step -/

/-- EXT's turn runs the instruction its next word decodes to, at the state with the word issued and the turn used; a word that
names no instruction is refused. The turn is the schedule's, or EXT's by default when nothing is fixed and BUSY = 0 (log 6). -/
def Obligations.StepRunsTheNextTransaction : Prop :=
  ∀ (s : State) (w : Ht35) (ops : List HostOp) (rest : List Turn),
    s.program = .xfer w :: ops →
    s.schedule = .ext :: rest ∨ (s.schedule = [] ∧ rest = [] ∧ s.busy = false) →
    (∀ i, decodeHt35 w = .ok i → step s = exec i { s with program := ops, schedule := rest }) ∧
    (∀ e, decodeHt35 w = .error e → step s = .next { s with program := ops, schedule := rest, refused := true })

/-- ENGINE's turn runs the stage that STATUS.STATE selects (30_encoding.md R90); in IDLE, DONE and FAILED it has no step
(46_sequencer.md R170). -/
def Obligations.StepRunsTheSelectedStage : Prop :=
  ∀ (s : State) (rest : List Turn), s.schedule = .engine :: rest ∨ (s.schedule = [] ∧ rest = [] ∧ s.busy = true) →
    (s.seq = .accepted → step s = exec .detect { s with schedule := rest }) ∧
    (s.seq = .directionDetected → step s = exec .normloc { s with schedule := rest }) ∧
    (s.seq = .sentinelFound → step s = exec .decodeChars { s with schedule := rest }) ∧
    (s.seq = .charactersDecoded → step s = exec .lrcCheck { s with schedule := rest }) ∧
    (s.seq = .checksumChecked → step s = exec .publish { s with schedule := rest }) ∧
    (s.busy = false → step s = .next { s with schedule := rest })

/-- WAIT (30_encoding.md R95): EXT's turn reads STATUS; while BUSY = 1 it polls again, at BUSY = 0 it goes on. The turn is the
schedule's, or EXT's by default when nothing is fixed and BUSY = 0 (log 6). -/
def Obligations.WaitPollsUntilNotBusy : Prop :=
  ∀ (s : State) (ops : List HostOp) (rest : List Turn), s.program = .wait :: ops →
    s.schedule = .ext :: rest ∨ (s.schedule = [] ∧ rest = [] ∧ s.busy = false) →
    ∃ v : Reg,
      (s.busy = true → v.getLsbD 3 = true ∧ step s = .next
        { s with schedule := rest, reads := s.reads ++ [v], draws := s.draws + 3, program := .wait :: ops }) ∧
      (s.busy = false → v = s.statusWord ∧ step s = .next
        { s with schedule := rest, reads := s.reads ++ [v], program := ops })

/-- APPEND b (30_encoding.md R95, 20_memory.md R64): undisturbed and below the capacity, three transactions write b at RAW[COUNT]
and raise COUNT by one. -/
def Obligations.AppendWritesTheNextBit : Prop :=
  ∀ (s : State) (b : Bool) (ops : List HostOp), s.program = .append b :: ops → s.schedule = [] → s.busy = false →
    s.count.toNat < s.cap → s.cap ≤ 65535 →
    ∃ t, Host.Core.run core 3 s = .next t ∧
      t = { s with program := ops, reads := s.reads ++ [s.count], raw := t.raw, count := s.count + 1 } ∧
      t.count.toNat = s.count.toNat + 1 ∧ t.rawBit s.count.toNat = b ∧
      ∀ j, j ≠ s.count.toNat → t.rawBit j = s.rawBit j

/-- APPEND b at the capacity (30_encoding.md R95, "Refused as its WRRAW is if n = CAP"): undisturbed, COUNT is read, each write is
refused, and nothing else changes. At n = 65535 the third transaction has no word and is not issued (log 8). -/
def Obligations.AppendAtTheCapacityIsRefused : Prop :=
  ∀ (s : State) (b : Bool) (ops : List HostOp), s.program = .append b :: ops → s.schedule = [] → s.busy = false →
    s.cap ≤ s.count.toNat →
    Host.Core.run core (if s.count.toNat = 65535 then 2 else 3) s =
      .next { s with program := ops, reads := s.reads ++ [s.count], refused := true }

/-- LOADBITS (30_encoding.md R95, 70_reset_and_hazards.md R236 O2): undisturbed and within the capacity, its transactions leave
RAW[0..k-1] = s and COUNT = k, with every bit below COUNT written, every other bit of RAW and all other state unchanged, the mark
among it. -/
def Obligations.LoadbitsLoadsTheSwipe : Prop :=
  ∀ (s : State) (bits : List Bool) (ops later : List HostOp), assemble (.loadbits bits) = some ops →
    s.program = ops ++ later → s.schedule = [] → s.busy = false → bits.length ≤ s.cap → s.cap ≤ 65535 →
    ∃ t, Host.Core.run core (bits.length + 1) s = .next t ∧
      t = { s with program := later, raw := t.raw, count := t.count } ∧ t.count.toNat = bits.length ∧
      bitsOf t.rawBit t.count.toNat = bits ∧ t.captureComplete ∧
      ∀ j, bits.length ≤ j → t.rawBit j = s.rawBit j

/-! ## The whole machine -/

/-- 46_sequencer.md R171: the complete transition relation of STATUS.STATE, by whose turn it is. -/
def Obligations.SequencerTransitionsAreComplete : Prop :=
  ∀ s t : State, step s = .next t →
    (s.nextTurn = none → t.seq = s.seq) ∧
    (s.nextTurn = some .reset → t.seq = .idle) ∧
    (s.nextTurn = some .ext → t.seq = s.seq ∨
      (s.busy = false ∧ t.seq = .accepted ∧ ∃ w ops i, s.program = .xfer w :: ops ∧ decodeHt35 w = .ok i ∧
        (i = .decodeT1 ∨ i = .decodeT2 ∨ i = .decodeT3))) ∧
    (s.nextTurn = some .engine →
      (s.busy = false ∧ t.seq = s.seq) ∨
      (s.seq = .accepted ∧ (t.seq = .directionDetected ∨ (t.seq = .failed ∧ t.reason = .noSentinel))) ∨
      (s.seq = .directionDetected ∧ t.seq = .sentinelFound) ∨
      (s.seq = .sentinelFound ∧ (t.seq = .charactersDecoded ∨
        (t.seq = .failed ∧ (t.reason = .parityError ∨ t.reason = .truncated)))) ∨
      (s.seq = .charactersDecoded ∧ t.seq = .checksumChecked) ∨
      (s.seq = .checksumChecked ∧ t.seq = .done))

/-- The invariant holds right after reset. -/
def Obligations.ResetMeetsTheInvariant : Prop := State.reset.Inv

/-- Every step keeps the invariant: the capacities, the buffers' canonical form, what each sequencer state says of the result
state (the table of 46_sequencer.md R176 among them), and ACC[5:4] = 0 for FourBit. In DIRECTION_DETECTED it says that LOCATE on
the normalized RAW finds a sentinel (43_sentinel_locator.md R136). For bits below COUNT that nobody wrote since reset this rests on
the model's stable draw of RAW (log 2). -/
def Obligations.EveryStepKeepsTheInvariant : Prop :=
  ∀ s t : State, s.Inv → step s = .next t → t.Inv

/-- 60_exceptions.md R211: "MSTD itself never faults, hangs or becomes stuck on any content of RAW". From every state that meets
the invariant a step answers a next state. NORMLOC finds again what DETECT found because the model's unwritten bits of RAW are
stable (log 2). -/
def Obligations.InvariantStatesNeverStop : Prop :=
  ∀ s : State, s.Inv → ∃ t, step s = .next t

/-- 46_sequencer.md R173, R178 and the traces of 95_test_vectors.md: a decode call left to the ENGINE ends, in DONE or FAILED,
after 1, 3 or 5 steps and not before. That the ENGINE steps when nothing is scheduled is the model's rendering of weak fairness
(log 19), and that NORMLOC finds again what DETECT found in bits nobody wrote since reset is its stable draw of RAW (log 2). -/
def Obligations.DecodeCallEndsInOneThreeOrFiveSteps : Prop :=
  ∀ s : State, s.seq = .accepted → s.trk ≠ .noTrack → s.schedule = [] →
    ∃ k t, (k = 1 ∨ k = 3 ∨ k = 5) ∧ Host.Core.run core k s = .next t ∧ (t.seq = .done ∨ t.seq = .failed) ∧
      ∀ j u, j < k → Host.Core.run core j s = .next u → u.busy = true

/-- The five stages compute the source's decode(raw_bits, track): from an accepted DECODE, whatever the buffers held, the run of
the ENGINE ends in the DecodeResult (47_host_commands.md R197) of the pure function on RAW[0..COUNT-1]. For bits below COUNT that
nobody wrote since reset (R236 O2 not met) this rests on the model's stable draw of RAW (log 2). -/
def Obligations.EngineRefinesTheSourceDecode : Prop :=
  ∀ (s : State) (f : Format), s.seq = .accepted → s.trk.format = some f →
    ∃ t, engineRun 5 s = .next t ∧ t.busy = false ∧ t.decodeResult = sourceDecode f (bitsOf s.rawBit s.count.toNat)

/-- The source's forward property under its preconditions (95_test_vectors.md V-PROP-1), of the pure sourceDecode, which the
machine computes by EngineRefinesTheSourceDecode: a track of data characters none of which
is the end sentinel, after any number of 0 bits and before any bits, decodes to its text, FORWARD and valid. -/
def Obligations.CleanTrackDecodesToItsText : Prop :=
  ∀ (f : Format) (values : List Nat) (m : Nat) (trailing : List Bool),
    (∀ v ∈ values, v < 2 ^ f.dataBits ∧ v ≠ f.es.toNat) →
    sourceDecode f (List.replicate m false ++ sourceTrack f values ++ trailing) =
      { asciiText := some (values.map fun v => BitVec.ofNat 8 (v + f.off.toNat)), length := values.length,
        direction := .forward, valid := true, reason := .noReason }

/-- The source's backward property under its precondition (95_test_vectors.md V-PROP-2), of the pure sourceDecode: where the reversed bits hold no forward
match, they decode to the same result, BACKWARD. -/
def Obligations.ReversedSwipeDecodesTheSameBackward : Prop :=
  ∀ (f : Format) (bits : List Bool), sourceLocate f bits ≠ none → sourceLocate f bits.reverse = none →
    sourceDecode f bits.reverse = { sourceDecode f bits with direction := .backward }

/-- The source's single-flip property under its precondition (95_test_vectors.md V-PROP-3): in a track that DECODE_CHARS accepts,
flipping any one bit of any data character or of the end sentinel gives PARITY_ERROR at that character's index. -/
def Obligations.AnySingleFlipIsAParityErrorAtItsIndex : Prop :=
  ∀ (s t : State) (f : Format) (j q : Nat), s.trk.format = some f → exec .decodeChars s = .next t →
    t.seq = .charactersDecoded → 1 ≤ j → j ≤ t.ndata.toNat + 1 → q < f.width →
    let at_ := s.sspos.toNat + j * f.width + q
    ∃ u, exec .decodeChars { s with work := Memory.write s.work at_ (!s.workBit at_) } = .next u ∧
      u.seq = .failed ∧ u.reason = .parityError ∧ u.erridx.toNat = j

/-- The source's truncation property under its precondition (95_test_vectors.md V-PROP-5): a cut that keeps the whole start
sentinel and loses the end sentinel's last bit gives TRUNCATED, at the index of the frame that was cut. -/
def Obligations.AnyCutBeforeTheEndSentinelIsTruncated : Prop :=
  ∀ (s t : State) (f : Format) (c : Reg), s.trk.format = some f → exec .decodeChars s = .next t →
    t.seq = .charactersDecoded → s.sspos.toNat + f.width ≤ c.toNat → c.toNat < t.endpos.toNat →
    ∃ u, exec .decodeChars { s with count := c } = .next u ∧
      u.seq = .failed ∧ u.reason = .truncated ∧ u.erridx.toNat = (c.toNat - s.sspos.toNat) / f.width

/-- The ENGINE writes only its own state, however long it runs: RAW, COUNT, TRK, the mark and all that is EXT's stay
(41_direction_detector.md R115, 10_state.md R20, R31, R32). -/
def Obligations.EngineWritesOnlyItsOwnState : Prop :=
  ∀ (k : Nat) (s t : State), engineRun k s = .next t →
    t = { s with seq := t.seq, reason := t.reason, dir := t.dir, valid := t.valid, length := t.length, erridx := t.erridx,
                 sspos := t.sspos, endpos := t.endpos, lrc := t.lrc, work := t.work, text := t.text, acc := t.acc,
                 ndata := t.ndata }

/-- 41_direction_detector.md R115: RAW and COUNT after a decode call are what EXT left, so a second DECODE of the same buffer with
the same TRACK gives the same result. For bits below COUNT that nobody wrote since reset this rests on the model's stable draw
of RAW (log 2). -/
def Obligations.SecondDecodeGivesTheSameResult : Prop :=
  ∀ (s t : State) (k : TrackCode), k ≠ .noTrack → engineRun 5 (s.accept k) = .next t →
    t.raw = s.raw ∧ t.count = s.count ∧
    ∃ u, engineRun 5 (t.accept k) = .next u ∧ u.observe = t.observe

/-- 20_memory.md R62, 10_state.md R39: the ENGINE never reads RAW at or above COUNT. -/
def Obligations.EngineIgnoresRawAboveCount : Prop :=
  ∀ (s t : State) (i : Instr) (r : List (Nat × Bool)), hostInstr i = false →
    (∀ j, j < s.count.toNat → State.rawBit { s with raw := r } j = s.rawBit j) → exec i s = .next t →
    exec i { s with raw := r } = .next { t with raw := r }

/-- 42_bit_reversal.md R125: no stage reads WORK at or above COUNT. -/
def Obligations.EngineIgnoresWorkAboveCount : Prop :=
  ∀ (s t : State) (i : Instr) (w : List (Nat × Bool)), hostInstr i = false →
    (∀ j, j < s.count.toNat → State.workBit { s with work := w } j = s.workBit j) → exec i s = .next t →
    ∃ t', exec i { s with work := w } = .next t' ∧ t' = { t with work := t'.work } ∧
      ∀ j, j < s.count.toNat → t'.workBit j = t.workBit j

/-- 47_host_commands.md R190, corner case 4: a decode call for track 3 behaves exactly like one for track 2, except that TRK
reads 3. -/
def Obligations.TrackThreeDecodesLikeTrackTwo : Prop :=
  ∀ (k : Nat) (s t : State), engineRun k { s with trk := .t2 } = .next t →
    engineRun k { s with trk := .t3 } = .next { t with trk := .t3 }

/-- 70_reset_and_hazards.md R235: nothing ever clears the refusal mark, reset included, and a step that sets it changes no other
state than the turn and the transaction it uses up. -/
def Obligations.RefusalMarkIsSetAloneAndNeverCleared : Prop :=
  ∀ s t : State, step s = .next t →
    (s.refused = true → t.refused = true) ∧
    (s.refused = false → t.refused = true →
      t = { s with refused := true, program := s.program.tail, schedule := s.schedule.tail })

/-- 20_memory.md R75: in DONE and FAILED the result state stays as it is at every step but an acceptance or a reset. -/
def Obligations.ResultsStayUntilAcceptanceOrReset : Prop :=
  ∀ s t : State, step s = .next t → s.busy = false → t.busy = false → s.nextTurn ≠ some .reset →
    t.statusWord = s.statusWord ∧ t.length = s.length ∧ t.erridx = s.erridx ∧ t.sspos = s.sspos ∧ t.endpos = s.endpos ∧
    t.lrc = s.lrc ∧ t.text = s.text ∧ t.observe.text = s.observe.text

/-- 70_reset_and_hazards.md R239: the bounds on the work of DETECT, NORMLOC, DECODE_CHARS and LRC_CHECK (PUBLISH has none), and
those on a whole decode call, whose states s, t, u, v at the four stages share COUNT. The counters are the model's own (log 18):
R239 counts window compares, copies of bits and frames, and no step reads a counter. -/
def Obligations.StageWorkIsBounded : Prop :=
  ∀ (s : State) (f : Format),
    let n := s.count.toNat
    s.detectCompares f ≤ 2 * (n + 1 - f.width) ∧ s.detectCopies f ≤ 2 * n ∧
    s.normlocCompares f ≤ n + 1 - f.width ∧ s.normlocCopies = n ∧
    s.framesExamined f ≤ (n - s.sspos.toNat) / f.width + 1 ∧ s.lrcFrames f ≤ 1 ∧
    ∀ t u v : State, t.count = s.count → u.count = s.count → n ≤ s.cap →
      s.detectCompares f + t.normlocCompares f ≤ 3 * s.cap ∧ s.detectCopies f + t.normlocCopies ≤ 3 * s.cap ∧
      u.framesExamined f + v.lrcFrames f ≤ s.cap / f.width + 2
end

