-- ==== Sys2Proof/Laws/State.lean ====
section
/-! SUPPORT. What each named update of State leaves in each field: one lemma per field per update, by rfl. -/

namespace Sys2Proof.Machine

/-! ## State.useDraws -/

@[simp] theorem State.useDraws_seq (n : Nat) (s : State) : (s.useDraws n).seq = s.seq := rfl
@[simp] theorem State.useDraws_reason (n : Nat) (s : State) : (s.useDraws n).reason = s.reason := rfl
@[simp] theorem State.useDraws_dir (n : Nat) (s : State) : (s.useDraws n).dir = s.dir := rfl
@[simp] theorem State.useDraws_valid (n : Nat) (s : State) : (s.useDraws n).valid = s.valid := rfl
@[simp] theorem State.useDraws_trk (n : Nat) (s : State) : (s.useDraws n).trk = s.trk := rfl
@[simp] theorem State.useDraws_count (n : Nat) (s : State) : (s.useDraws n).count = s.count := rfl
@[simp] theorem State.useDraws_length (n : Nat) (s : State) : (s.useDraws n).length = s.length := rfl
@[simp] theorem State.useDraws_erridx (n : Nat) (s : State) : (s.useDraws n).erridx = s.erridx := rfl
@[simp] theorem State.useDraws_sspos (n : Nat) (s : State) : (s.useDraws n).sspos = s.sspos := rfl
@[simp] theorem State.useDraws_endpos (n : Nat) (s : State) : (s.useDraws n).endpos = s.endpos := rfl
@[simp] theorem State.useDraws_lrc (n : Nat) (s : State) : (s.useDraws n).lrc = s.lrc := rfl
@[simp] theorem State.useDraws_raw (n : Nat) (s : State) : (s.useDraws n).raw = s.raw := rfl
@[simp] theorem State.useDraws_work (n : Nat) (s : State) : (s.useDraws n).work = s.work := rfl
@[simp] theorem State.useDraws_text (n : Nat) (s : State) : (s.useDraws n).text = s.text := rfl
@[simp] theorem State.useDraws_acc (n : Nat) (s : State) : (s.useDraws n).acc = s.acc := rfl
@[simp] theorem State.useDraws_ndata (n : Nat) (s : State) : (s.useDraws n).ndata = s.ndata := rfl
@[simp] theorem State.useDraws_refused (n : Nat) (s : State) : (s.useDraws n).refused = s.refused := rfl
@[simp] theorem State.useDraws_cap (n : Nat) (s : State) : (s.useDraws n).cap = s.cap := rfl
@[simp] theorem State.useDraws_draws (n : Nat) (s : State) : (s.useDraws n).draws = s.draws + n := rfl
@[simp] theorem State.useDraws_resets (n : Nat) (s : State) : (s.useDraws n).resets = s.resets := rfl
@[simp] theorem State.useDraws_program (n : Nat) (s : State) : (s.useDraws n).program = s.program := rfl
@[simp] theorem State.useDraws_schedule (n : Nat) (s : State) : (s.useDraws n).schedule = s.schedule := rfl
@[simp] theorem State.useDraws_reads (n : Nat) (s : State) : (s.useDraws n).reads = s.reads := rfl

/-! ## State.returnRead -/

@[simp] theorem State.returnRead_seq (v : Reg) (s : State) : (s.returnRead v).seq = s.seq := rfl
@[simp] theorem State.returnRead_reason (v : Reg) (s : State) : (s.returnRead v).reason = s.reason := rfl
@[simp] theorem State.returnRead_dir (v : Reg) (s : State) : (s.returnRead v).dir = s.dir := rfl
@[simp] theorem State.returnRead_valid (v : Reg) (s : State) : (s.returnRead v).valid = s.valid := rfl
@[simp] theorem State.returnRead_trk (v : Reg) (s : State) : (s.returnRead v).trk = s.trk := rfl
@[simp] theorem State.returnRead_count (v : Reg) (s : State) : (s.returnRead v).count = s.count := rfl
@[simp] theorem State.returnRead_length (v : Reg) (s : State) : (s.returnRead v).length = s.length := rfl
@[simp] theorem State.returnRead_erridx (v : Reg) (s : State) : (s.returnRead v).erridx = s.erridx := rfl
@[simp] theorem State.returnRead_sspos (v : Reg) (s : State) : (s.returnRead v).sspos = s.sspos := rfl
@[simp] theorem State.returnRead_endpos (v : Reg) (s : State) : (s.returnRead v).endpos = s.endpos := rfl
@[simp] theorem State.returnRead_lrc (v : Reg) (s : State) : (s.returnRead v).lrc = s.lrc := rfl
@[simp] theorem State.returnRead_raw (v : Reg) (s : State) : (s.returnRead v).raw = s.raw := rfl
@[simp] theorem State.returnRead_work (v : Reg) (s : State) : (s.returnRead v).work = s.work := rfl
@[simp] theorem State.returnRead_text (v : Reg) (s : State) : (s.returnRead v).text = s.text := rfl
@[simp] theorem State.returnRead_acc (v : Reg) (s : State) : (s.returnRead v).acc = s.acc := rfl
@[simp] theorem State.returnRead_ndata (v : Reg) (s : State) : (s.returnRead v).ndata = s.ndata := rfl
@[simp] theorem State.returnRead_refused (v : Reg) (s : State) : (s.returnRead v).refused = s.refused := rfl
@[simp] theorem State.returnRead_cap (v : Reg) (s : State) : (s.returnRead v).cap = s.cap := rfl
@[simp] theorem State.returnRead_draws (v : Reg) (s : State) : (s.returnRead v).draws = s.draws := rfl
@[simp] theorem State.returnRead_resets (v : Reg) (s : State) : (s.returnRead v).resets = s.resets := rfl
@[simp] theorem State.returnRead_program (v : Reg) (s : State) : (s.returnRead v).program = s.program := rfl
@[simp] theorem State.returnRead_schedule (v : Reg) (s : State) : (s.returnRead v).schedule = s.schedule := rfl
@[simp] theorem State.returnRead_reads (v : Reg) (s : State) : (s.returnRead v).reads = s.reads ++ [v] := rfl

/-! ## State.refuse -/

@[simp] theorem State.refuse_seq (s : State) : (s.refuse).seq = s.seq := rfl
@[simp] theorem State.refuse_reason (s : State) : (s.refuse).reason = s.reason := rfl
@[simp] theorem State.refuse_dir (s : State) : (s.refuse).dir = s.dir := rfl
@[simp] theorem State.refuse_valid (s : State) : (s.refuse).valid = s.valid := rfl
@[simp] theorem State.refuse_trk (s : State) : (s.refuse).trk = s.trk := rfl
@[simp] theorem State.refuse_count (s : State) : (s.refuse).count = s.count := rfl
@[simp] theorem State.refuse_length (s : State) : (s.refuse).length = s.length := rfl
@[simp] theorem State.refuse_erridx (s : State) : (s.refuse).erridx = s.erridx := rfl
@[simp] theorem State.refuse_sspos (s : State) : (s.refuse).sspos = s.sspos := rfl
@[simp] theorem State.refuse_endpos (s : State) : (s.refuse).endpos = s.endpos := rfl
@[simp] theorem State.refuse_lrc (s : State) : (s.refuse).lrc = s.lrc := rfl
@[simp] theorem State.refuse_raw (s : State) : (s.refuse).raw = s.raw := rfl
@[simp] theorem State.refuse_work (s : State) : (s.refuse).work = s.work := rfl
@[simp] theorem State.refuse_text (s : State) : (s.refuse).text = s.text := rfl
@[simp] theorem State.refuse_acc (s : State) : (s.refuse).acc = s.acc := rfl
@[simp] theorem State.refuse_ndata (s : State) : (s.refuse).ndata = s.ndata := rfl
@[simp] theorem State.refuse_refused (s : State) : (s.refuse).refused = true := rfl
@[simp] theorem State.refuse_cap (s : State) : (s.refuse).cap = s.cap := rfl
@[simp] theorem State.refuse_draws (s : State) : (s.refuse).draws = s.draws := rfl
@[simp] theorem State.refuse_resets (s : State) : (s.refuse).resets = s.resets := rfl
@[simp] theorem State.refuse_program (s : State) : (s.refuse).program = s.program := rfl
@[simp] theorem State.refuse_schedule (s : State) : (s.refuse).schedule = s.schedule := rfl
@[simp] theorem State.refuse_reads (s : State) : (s.refuse).reads = s.reads := rfl

/-! ## State.accept -/

@[simp] theorem State.accept_seq (t : TrackCode) (s : State) : (s.accept t).seq = .accepted := rfl
@[simp] theorem State.accept_reason (t : TrackCode) (s : State) : (s.accept t).reason = .noReason := rfl
@[simp] theorem State.accept_dir (t : TrackCode) (s : State) : (s.accept t).dir = .unknown := rfl
@[simp] theorem State.accept_valid (t : TrackCode) (s : State) : (s.accept t).valid = false := rfl
@[simp] theorem State.accept_trk (t : TrackCode) (s : State) : (s.accept t).trk = t := rfl
@[simp] theorem State.accept_count (t : TrackCode) (s : State) : (s.accept t).count = s.count := rfl
@[simp] theorem State.accept_length (t : TrackCode) (s : State) : (s.accept t).length = 0 := rfl
@[simp] theorem State.accept_erridx (t : TrackCode) (s : State) : (s.accept t).erridx = 0 := rfl
@[simp] theorem State.accept_sspos (t : TrackCode) (s : State) : (s.accept t).sspos = 0 := rfl
@[simp] theorem State.accept_endpos (t : TrackCode) (s : State) : (s.accept t).endpos = 0 := rfl
@[simp] theorem State.accept_lrc (t : TrackCode) (s : State) : (s.accept t).lrc = 0 := rfl
@[simp] theorem State.accept_raw (t : TrackCode) (s : State) : (s.accept t).raw = s.raw := rfl
@[simp] theorem State.accept_work (t : TrackCode) (s : State) : (s.accept t).work = s.work := rfl
@[simp] theorem State.accept_text (t : TrackCode) (s : State) : (s.accept t).text = s.text := rfl
@[simp] theorem State.accept_acc (t : TrackCode) (s : State) : (s.accept t).acc = 0 := rfl
@[simp] theorem State.accept_ndata (t : TrackCode) (s : State) : (s.accept t).ndata = 0 := rfl
@[simp] theorem State.accept_refused (t : TrackCode) (s : State) : (s.accept t).refused = s.refused := rfl
@[simp] theorem State.accept_cap (t : TrackCode) (s : State) : (s.accept t).cap = s.cap := rfl
@[simp] theorem State.accept_draws (t : TrackCode) (s : State) : (s.accept t).draws = s.draws := rfl
@[simp] theorem State.accept_resets (t : TrackCode) (s : State) : (s.accept t).resets = s.resets := rfl
@[simp] theorem State.accept_program (t : TrackCode) (s : State) : (s.accept t).program = s.program := rfl
@[simp] theorem State.accept_schedule (t : TrackCode) (s : State) : (s.accept t).schedule = s.schedule := rfl
@[simp] theorem State.accept_reads (t : TrackCode) (s : State) : (s.accept t).reads = s.reads := rfl

/-! ## State.fail -/

@[simp] theorem State.fail_seq (why : Reason) (idx : Nat) (s : State) : (s.fail why idx).seq = .failed := rfl
@[simp] theorem State.fail_reason (why : Reason) (idx : Nat) (s : State) : (s.fail why idx).reason = why := rfl
@[simp] theorem State.fail_dir (why : Reason) (idx : Nat) (s : State) : (s.fail why idx).dir = s.dir := rfl
@[simp] theorem State.fail_valid (why : Reason) (idx : Nat) (s : State) : (s.fail why idx).valid = false := rfl
@[simp] theorem State.fail_trk (why : Reason) (idx : Nat) (s : State) : (s.fail why idx).trk = s.trk := rfl
@[simp] theorem State.fail_count (why : Reason) (idx : Nat) (s : State) : (s.fail why idx).count = s.count := rfl
@[simp] theorem State.fail_length (why : Reason) (idx : Nat) (s : State) : (s.fail why idx).length = 0xFFFF := rfl
@[simp] theorem State.fail_erridx (why : Reason) (idx : Nat) (s : State) : (s.fail why idx).erridx = BitVec.ofNat 16 idx := rfl
@[simp] theorem State.fail_sspos (why : Reason) (idx : Nat) (s : State) : (s.fail why idx).sspos = s.sspos := rfl
@[simp] theorem State.fail_endpos (why : Reason) (idx : Nat) (s : State) : (s.fail why idx).endpos = s.endpos := rfl
@[simp] theorem State.fail_lrc (why : Reason) (idx : Nat) (s : State) : (s.fail why idx).lrc = s.lrc := rfl
@[simp] theorem State.fail_raw (why : Reason) (idx : Nat) (s : State) : (s.fail why idx).raw = s.raw := rfl
@[simp] theorem State.fail_work (why : Reason) (idx : Nat) (s : State) : (s.fail why idx).work = s.work := rfl
@[simp] theorem State.fail_text (why : Reason) (idx : Nat) (s : State) : (s.fail why idx).text = s.text := rfl
@[simp] theorem State.fail_acc (why : Reason) (idx : Nat) (s : State) : (s.fail why idx).acc = s.acc := rfl
@[simp] theorem State.fail_ndata (why : Reason) (idx : Nat) (s : State) : (s.fail why idx).ndata = s.ndata := rfl
@[simp] theorem State.fail_refused (why : Reason) (idx : Nat) (s : State) : (s.fail why idx).refused = s.refused := rfl
@[simp] theorem State.fail_cap (why : Reason) (idx : Nat) (s : State) : (s.fail why idx).cap = s.cap := rfl
@[simp] theorem State.fail_draws (why : Reason) (idx : Nat) (s : State) : (s.fail why idx).draws = s.draws := rfl
@[simp] theorem State.fail_resets (why : Reason) (idx : Nat) (s : State) : (s.fail why idx).resets = s.resets := rfl
@[simp] theorem State.fail_program (why : Reason) (idx : Nat) (s : State) : (s.fail why idx).program = s.program := rfl
@[simp] theorem State.fail_schedule (why : Reason) (idx : Nat) (s : State) : (s.fail why idx).schedule = s.schedule := rfl
@[simp] theorem State.fail_reads (why : Reason) (idx : Nat) (s : State) : (s.fail why idx).reads = s.reads := rfl

/-! ## State.resetBlock -/

@[simp] theorem State.resetBlock_seq (s : State) : (s.resetBlock).seq = .idle := rfl
@[simp] theorem State.resetBlock_reason (s : State) : (s.resetBlock).reason = .noReason := rfl
@[simp] theorem State.resetBlock_dir (s : State) : (s.resetBlock).dir = .unknown := rfl
@[simp] theorem State.resetBlock_valid (s : State) : (s.resetBlock).valid = false := rfl
@[simp] theorem State.resetBlock_trk (s : State) : (s.resetBlock).trk = .noTrack := rfl
@[simp] theorem State.resetBlock_count (s : State) : (s.resetBlock).count = 0 := rfl
@[simp] theorem State.resetBlock_length (s : State) : (s.resetBlock).length = 0 := rfl
@[simp] theorem State.resetBlock_erridx (s : State) : (s.resetBlock).erridx = 0 := rfl
@[simp] theorem State.resetBlock_sspos (s : State) : (s.resetBlock).sspos = 0 := rfl
@[simp] theorem State.resetBlock_endpos (s : State) : (s.resetBlock).endpos = 0 := rfl
@[simp] theorem State.resetBlock_lrc (s : State) : (s.resetBlock).lrc = 0 := rfl
@[simp] theorem State.resetBlock_raw (s : State) : (s.resetBlock).raw = [] := rfl
@[simp] theorem State.resetBlock_work (s : State) : (s.resetBlock).work = [] := rfl
@[simp] theorem State.resetBlock_text (s : State) : (s.resetBlock).text = [] := rfl
@[simp] theorem State.resetBlock_acc (s : State) : (s.resetBlock).acc = 0 := rfl
@[simp] theorem State.resetBlock_ndata (s : State) : (s.resetBlock).ndata = 0 := rfl
@[simp] theorem State.resetBlock_refused (s : State) : (s.resetBlock).refused = s.refused := rfl
@[simp] theorem State.resetBlock_cap (s : State) : (s.resetBlock).cap = s.cap := rfl
@[simp] theorem State.resetBlock_draws (s : State) : (s.resetBlock).draws = s.draws := rfl
@[simp] theorem State.resetBlock_resets (s : State) : (s.resetBlock).resets = s.resets + 1 := rfl
@[simp] theorem State.resetBlock_program (s : State) : (s.resetBlock).program = s.program := rfl
@[simp] theorem State.resetBlock_schedule (s : State) : (s.resetBlock).schedule = s.schedule := rfl
@[simp] theorem State.resetBlock_reads (s : State) : (s.resetBlock).reads = s.reads := rfl

/-! ## State.copyRaw -/

@[simp] theorem State.copyRaw_seq (s : State) : (s.copyRaw).seq = s.seq := rfl
@[simp] theorem State.copyRaw_reason (s : State) : (s.copyRaw).reason = s.reason := rfl
@[simp] theorem State.copyRaw_dir (s : State) : (s.copyRaw).dir = s.dir := rfl
@[simp] theorem State.copyRaw_valid (s : State) : (s.copyRaw).valid = s.valid := rfl
@[simp] theorem State.copyRaw_trk (s : State) : (s.copyRaw).trk = s.trk := rfl
@[simp] theorem State.copyRaw_count (s : State) : (s.copyRaw).count = s.count := rfl
@[simp] theorem State.copyRaw_length (s : State) : (s.copyRaw).length = s.length := rfl
@[simp] theorem State.copyRaw_erridx (s : State) : (s.copyRaw).erridx = s.erridx := rfl
@[simp] theorem State.copyRaw_sspos (s : State) : (s.copyRaw).sspos = s.sspos := rfl
@[simp] theorem State.copyRaw_endpos (s : State) : (s.copyRaw).endpos = s.endpos := rfl
@[simp] theorem State.copyRaw_lrc (s : State) : (s.copyRaw).lrc = s.lrc := rfl
@[simp] theorem State.copyRaw_raw (s : State) : (s.copyRaw).raw = s.raw := rfl
@[simp] theorem State.copyRaw_work (s : State) : (s.copyRaw).work = Memory.writeFrom s.work 0 (bitsOf s.rawBit s.count.toNat) := rfl
@[simp] theorem State.copyRaw_text (s : State) : (s.copyRaw).text = s.text := rfl
@[simp] theorem State.copyRaw_acc (s : State) : (s.copyRaw).acc = s.acc := rfl
@[simp] theorem State.copyRaw_ndata (s : State) : (s.copyRaw).ndata = s.ndata := rfl
@[simp] theorem State.copyRaw_refused (s : State) : (s.copyRaw).refused = s.refused := rfl
@[simp] theorem State.copyRaw_cap (s : State) : (s.copyRaw).cap = s.cap := rfl
@[simp] theorem State.copyRaw_draws (s : State) : (s.copyRaw).draws = s.draws := rfl
@[simp] theorem State.copyRaw_resets (s : State) : (s.copyRaw).resets = s.resets := rfl
@[simp] theorem State.copyRaw_program (s : State) : (s.copyRaw).program = s.program := rfl
@[simp] theorem State.copyRaw_schedule (s : State) : (s.copyRaw).schedule = s.schedule := rfl
@[simp] theorem State.copyRaw_reads (s : State) : (s.copyRaw).reads = s.reads := rfl

/-! ## State.copyRawReversed -/

@[simp] theorem State.copyRawReversed_seq (s : State) : (s.copyRawReversed).seq = s.seq := rfl
@[simp] theorem State.copyRawReversed_reason (s : State) : (s.copyRawReversed).reason = s.reason := rfl
@[simp] theorem State.copyRawReversed_dir (s : State) : (s.copyRawReversed).dir = s.dir := rfl
@[simp] theorem State.copyRawReversed_valid (s : State) : (s.copyRawReversed).valid = s.valid := rfl
@[simp] theorem State.copyRawReversed_trk (s : State) : (s.copyRawReversed).trk = s.trk := rfl
@[simp] theorem State.copyRawReversed_count (s : State) : (s.copyRawReversed).count = s.count := rfl
@[simp] theorem State.copyRawReversed_length (s : State) : (s.copyRawReversed).length = s.length := rfl
@[simp] theorem State.copyRawReversed_erridx (s : State) : (s.copyRawReversed).erridx = s.erridx := rfl
@[simp] theorem State.copyRawReversed_sspos (s : State) : (s.copyRawReversed).sspos = s.sspos := rfl
@[simp] theorem State.copyRawReversed_endpos (s : State) : (s.copyRawReversed).endpos = s.endpos := rfl
@[simp] theorem State.copyRawReversed_lrc (s : State) : (s.copyRawReversed).lrc = s.lrc := rfl
@[simp] theorem State.copyRawReversed_raw (s : State) : (s.copyRawReversed).raw = s.raw := rfl
@[simp] theorem State.copyRawReversed_work (s : State) : (s.copyRawReversed).work = Memory.writeFrom s.work 0 (reverseBits s.rawBit s.count.toNat) := rfl
@[simp] theorem State.copyRawReversed_text (s : State) : (s.copyRawReversed).text = s.text := rfl
@[simp] theorem State.copyRawReversed_acc (s : State) : (s.copyRawReversed).acc = s.acc := rfl
@[simp] theorem State.copyRawReversed_ndata (s : State) : (s.copyRawReversed).ndata = s.ndata := rfl
@[simp] theorem State.copyRawReversed_refused (s : State) : (s.copyRawReversed).refused = s.refused := rfl
@[simp] theorem State.copyRawReversed_cap (s : State) : (s.copyRawReversed).cap = s.cap := rfl
@[simp] theorem State.copyRawReversed_draws (s : State) : (s.copyRawReversed).draws = s.draws := rfl
@[simp] theorem State.copyRawReversed_resets (s : State) : (s.copyRawReversed).resets = s.resets := rfl
@[simp] theorem State.copyRawReversed_program (s : State) : (s.copyRawReversed).program = s.program := rfl
@[simp] theorem State.copyRawReversed_schedule (s : State) : (s.copyRawReversed).schedule = s.schedule := rfl
@[simp] theorem State.copyRawReversed_reads (s : State) : (s.copyRawReversed).reads = s.reads := rfl

/-! ## State.detected -/

@[simp] theorem State.detected_seq (d : ReadDirection) (s : State) : (s.detected d).seq = .directionDetected := rfl
@[simp] theorem State.detected_reason (d : ReadDirection) (s : State) : (s.detected d).reason = s.reason := rfl
@[simp] theorem State.detected_dir (d : ReadDirection) (s : State) : (s.detected d).dir = d := rfl
@[simp] theorem State.detected_valid (d : ReadDirection) (s : State) : (s.detected d).valid = s.valid := rfl
@[simp] theorem State.detected_trk (d : ReadDirection) (s : State) : (s.detected d).trk = s.trk := rfl
@[simp] theorem State.detected_count (d : ReadDirection) (s : State) : (s.detected d).count = s.count := rfl
@[simp] theorem State.detected_length (d : ReadDirection) (s : State) : (s.detected d).length = s.length := rfl
@[simp] theorem State.detected_erridx (d : ReadDirection) (s : State) : (s.detected d).erridx = s.erridx := rfl
@[simp] theorem State.detected_sspos (d : ReadDirection) (s : State) : (s.detected d).sspos = s.sspos := rfl
@[simp] theorem State.detected_endpos (d : ReadDirection) (s : State) : (s.detected d).endpos = s.endpos := rfl
@[simp] theorem State.detected_lrc (d : ReadDirection) (s : State) : (s.detected d).lrc = s.lrc := rfl
@[simp] theorem State.detected_raw (d : ReadDirection) (s : State) : (s.detected d).raw = s.raw := rfl
@[simp] theorem State.detected_work (d : ReadDirection) (s : State) : (s.detected d).work = s.work := rfl
@[simp] theorem State.detected_text (d : ReadDirection) (s : State) : (s.detected d).text = s.text := rfl
@[simp] theorem State.detected_acc (d : ReadDirection) (s : State) : (s.detected d).acc = s.acc := rfl
@[simp] theorem State.detected_ndata (d : ReadDirection) (s : State) : (s.detected d).ndata = s.ndata := rfl
@[simp] theorem State.detected_refused (d : ReadDirection) (s : State) : (s.detected d).refused = s.refused := rfl
@[simp] theorem State.detected_cap (d : ReadDirection) (s : State) : (s.detected d).cap = s.cap := rfl
@[simp] theorem State.detected_draws (d : ReadDirection) (s : State) : (s.detected d).draws = s.draws := rfl
@[simp] theorem State.detected_resets (d : ReadDirection) (s : State) : (s.detected d).resets = s.resets := rfl
@[simp] theorem State.detected_program (d : ReadDirection) (s : State) : (s.detected d).program = s.program := rfl
@[simp] theorem State.detected_schedule (d : ReadDirection) (s : State) : (s.detected d).schedule = s.schedule := rfl
@[simp] theorem State.detected_reads (d : ReadDirection) (s : State) : (s.detected d).reads = s.reads := rfl

/-! ## State.located -/

@[simp] theorem State.located_seq (p : Nat) (s : State) : (s.located p).seq = .sentinelFound := rfl
@[simp] theorem State.located_reason (p : Nat) (s : State) : (s.located p).reason = s.reason := rfl
@[simp] theorem State.located_dir (p : Nat) (s : State) : (s.located p).dir = s.dir := rfl
@[simp] theorem State.located_valid (p : Nat) (s : State) : (s.located p).valid = s.valid := rfl
@[simp] theorem State.located_trk (p : Nat) (s : State) : (s.located p).trk = s.trk := rfl
@[simp] theorem State.located_count (p : Nat) (s : State) : (s.located p).count = s.count := rfl
@[simp] theorem State.located_length (p : Nat) (s : State) : (s.located p).length = s.length := rfl
@[simp] theorem State.located_erridx (p : Nat) (s : State) : (s.located p).erridx = s.erridx := rfl
@[simp] theorem State.located_sspos (p : Nat) (s : State) : (s.located p).sspos = BitVec.ofNat 16 p := rfl
@[simp] theorem State.located_endpos (p : Nat) (s : State) : (s.located p).endpos = s.endpos := rfl
@[simp] theorem State.located_lrc (p : Nat) (s : State) : (s.located p).lrc = s.lrc := rfl
@[simp] theorem State.located_raw (p : Nat) (s : State) : (s.located p).raw = s.raw := rfl
@[simp] theorem State.located_work (p : Nat) (s : State) : (s.located p).work = s.work := rfl
@[simp] theorem State.located_text (p : Nat) (s : State) : (s.located p).text = s.text := rfl
@[simp] theorem State.located_acc (p : Nat) (s : State) : (s.located p).acc = s.acc := rfl
@[simp] theorem State.located_ndata (p : Nat) (s : State) : (s.located p).ndata = s.ndata := rfl
@[simp] theorem State.located_refused (p : Nat) (s : State) : (s.located p).refused = s.refused := rfl
@[simp] theorem State.located_cap (p : Nat) (s : State) : (s.located p).cap = s.cap := rfl
@[simp] theorem State.located_draws (p : Nat) (s : State) : (s.located p).draws = s.draws := rfl
@[simp] theorem State.located_resets (p : Nat) (s : State) : (s.located p).resets = s.resets := rfl
@[simp] theorem State.located_program (p : Nat) (s : State) : (s.located p).program = s.program := rfl
@[simp] theorem State.located_schedule (p : Nat) (s : State) : (s.located p).schedule = s.schedule := rfl
@[simp] theorem State.located_reads (p : Nat) (s : State) : (s.located p).reads = s.reads := rfl

/-! ## State.charsDecoded -/

@[simp] theorem State.charsDecoded_seq (f : Format) (r : FramerVars) (s : State) : (s.charsDecoded f r).seq = .charactersDecoded := rfl
@[simp] theorem State.charsDecoded_reason (f : Format) (r : FramerVars) (s : State) : (s.charsDecoded f r).reason = s.reason := rfl
@[simp] theorem State.charsDecoded_dir (f : Format) (r : FramerVars) (s : State) : (s.charsDecoded f r).dir = s.dir := rfl
@[simp] theorem State.charsDecoded_valid (f : Format) (r : FramerVars) (s : State) : (s.charsDecoded f r).valid = s.valid := rfl
@[simp] theorem State.charsDecoded_trk (f : Format) (r : FramerVars) (s : State) : (s.charsDecoded f r).trk = s.trk := rfl
@[simp] theorem State.charsDecoded_count (f : Format) (r : FramerVars) (s : State) : (s.charsDecoded f r).count = s.count := rfl
@[simp] theorem State.charsDecoded_length (f : Format) (r : FramerVars) (s : State) : (s.charsDecoded f r).length = s.length := rfl
@[simp] theorem State.charsDecoded_erridx (f : Format) (r : FramerVars) (s : State) : (s.charsDecoded f r).erridx = s.erridx := rfl
@[simp] theorem State.charsDecoded_sspos (f : Format) (r : FramerVars) (s : State) : (s.charsDecoded f r).sspos = s.sspos := rfl
@[simp] theorem State.charsDecoded_endpos (f : Format) (r : FramerVars) (s : State) : (s.charsDecoded f r).endpos = BitVec.ofNat 16 (r.cur + f.width) := rfl
@[simp] theorem State.charsDecoded_lrc (f : Format) (r : FramerVars) (s : State) : (s.charsDecoded f r).lrc = s.lrc := rfl
@[simp] theorem State.charsDecoded_raw (f : Format) (r : FramerVars) (s : State) : (s.charsDecoded f r).raw = s.raw := rfl
@[simp] theorem State.charsDecoded_work (f : Format) (r : FramerVars) (s : State) : (s.charsDecoded f r).work = s.work := rfl
@[simp] theorem State.charsDecoded_text (f : Format) (r : FramerVars) (s : State) : (s.charsDecoded f r).text = r.text := rfl
@[simp] theorem State.charsDecoded_acc (f : Format) (r : FramerVars) (s : State) : (s.charsDecoded f r).acc = r.acc := rfl
@[simp] theorem State.charsDecoded_ndata (f : Format) (r : FramerVars) (s : State) : (s.charsDecoded f r).ndata = BitVec.ofNat 16 r.nd := rfl
@[simp] theorem State.charsDecoded_refused (f : Format) (r : FramerVars) (s : State) : (s.charsDecoded f r).refused = s.refused := rfl
@[simp] theorem State.charsDecoded_cap (f : Format) (r : FramerVars) (s : State) : (s.charsDecoded f r).cap = s.cap := rfl
@[simp] theorem State.charsDecoded_draws (f : Format) (r : FramerVars) (s : State) : (s.charsDecoded f r).draws = s.draws := rfl
@[simp] theorem State.charsDecoded_resets (f : Format) (r : FramerVars) (s : State) : (s.charsDecoded f r).resets = s.resets := rfl
@[simp] theorem State.charsDecoded_program (f : Format) (r : FramerVars) (s : State) : (s.charsDecoded f r).program = s.program := rfl
@[simp] theorem State.charsDecoded_schedule (f : Format) (r : FramerVars) (s : State) : (s.charsDecoded f r).schedule = s.schedule := rfl
@[simp] theorem State.charsDecoded_reads (f : Format) (r : FramerVars) (s : State) : (s.charsDecoded f r).reads = s.reads := rfl

/-! ## State.popTurn -/

@[simp] theorem State.popTurn_seq (s : State) : (s.popTurn).seq = s.seq := rfl
@[simp] theorem State.popTurn_reason (s : State) : (s.popTurn).reason = s.reason := rfl
@[simp] theorem State.popTurn_dir (s : State) : (s.popTurn).dir = s.dir := rfl
@[simp] theorem State.popTurn_valid (s : State) : (s.popTurn).valid = s.valid := rfl
@[simp] theorem State.popTurn_trk (s : State) : (s.popTurn).trk = s.trk := rfl
@[simp] theorem State.popTurn_count (s : State) : (s.popTurn).count = s.count := rfl
@[simp] theorem State.popTurn_length (s : State) : (s.popTurn).length = s.length := rfl
@[simp] theorem State.popTurn_erridx (s : State) : (s.popTurn).erridx = s.erridx := rfl
@[simp] theorem State.popTurn_sspos (s : State) : (s.popTurn).sspos = s.sspos := rfl
@[simp] theorem State.popTurn_endpos (s : State) : (s.popTurn).endpos = s.endpos := rfl
@[simp] theorem State.popTurn_lrc (s : State) : (s.popTurn).lrc = s.lrc := rfl
@[simp] theorem State.popTurn_raw (s : State) : (s.popTurn).raw = s.raw := rfl
@[simp] theorem State.popTurn_work (s : State) : (s.popTurn).work = s.work := rfl
@[simp] theorem State.popTurn_text (s : State) : (s.popTurn).text = s.text := rfl
@[simp] theorem State.popTurn_acc (s : State) : (s.popTurn).acc = s.acc := rfl
@[simp] theorem State.popTurn_ndata (s : State) : (s.popTurn).ndata = s.ndata := rfl
@[simp] theorem State.popTurn_refused (s : State) : (s.popTurn).refused = s.refused := rfl
@[simp] theorem State.popTurn_cap (s : State) : (s.popTurn).cap = s.cap := rfl
@[simp] theorem State.popTurn_draws (s : State) : (s.popTurn).draws = s.draws := rfl
@[simp] theorem State.popTurn_resets (s : State) : (s.popTurn).resets = s.resets := rfl
@[simp] theorem State.popTurn_program (s : State) : (s.popTurn).program = s.program := rfl
@[simp] theorem State.popTurn_schedule (s : State) : (s.popTurn).schedule = s.schedule.tail := rfl
@[simp] theorem State.popTurn_reads (s : State) : (s.popTurn).reads = s.reads := rfl

/-! ## State.popProgram -/

@[simp] theorem State.popProgram_seq (s : State) : (s.popProgram).seq = s.seq := rfl
@[simp] theorem State.popProgram_reason (s : State) : (s.popProgram).reason = s.reason := rfl
@[simp] theorem State.popProgram_dir (s : State) : (s.popProgram).dir = s.dir := rfl
@[simp] theorem State.popProgram_valid (s : State) : (s.popProgram).valid = s.valid := rfl
@[simp] theorem State.popProgram_trk (s : State) : (s.popProgram).trk = s.trk := rfl
@[simp] theorem State.popProgram_count (s : State) : (s.popProgram).count = s.count := rfl
@[simp] theorem State.popProgram_length (s : State) : (s.popProgram).length = s.length := rfl
@[simp] theorem State.popProgram_erridx (s : State) : (s.popProgram).erridx = s.erridx := rfl
@[simp] theorem State.popProgram_sspos (s : State) : (s.popProgram).sspos = s.sspos := rfl
@[simp] theorem State.popProgram_endpos (s : State) : (s.popProgram).endpos = s.endpos := rfl
@[simp] theorem State.popProgram_lrc (s : State) : (s.popProgram).lrc = s.lrc := rfl
@[simp] theorem State.popProgram_raw (s : State) : (s.popProgram).raw = s.raw := rfl
@[simp] theorem State.popProgram_work (s : State) : (s.popProgram).work = s.work := rfl
@[simp] theorem State.popProgram_text (s : State) : (s.popProgram).text = s.text := rfl
@[simp] theorem State.popProgram_acc (s : State) : (s.popProgram).acc = s.acc := rfl
@[simp] theorem State.popProgram_ndata (s : State) : (s.popProgram).ndata = s.ndata := rfl
@[simp] theorem State.popProgram_refused (s : State) : (s.popProgram).refused = s.refused := rfl
@[simp] theorem State.popProgram_cap (s : State) : (s.popProgram).cap = s.cap := rfl
@[simp] theorem State.popProgram_draws (s : State) : (s.popProgram).draws = s.draws := rfl
@[simp] theorem State.popProgram_resets (s : State) : (s.popProgram).resets = s.resets := rfl
@[simp] theorem State.popProgram_program (s : State) : (s.popProgram).program = s.program.tail := rfl
@[simp] theorem State.popProgram_schedule (s : State) : (s.popProgram).schedule = s.schedule := rfl
@[simp] theorem State.popProgram_reads (s : State) : (s.popProgram).reads = s.reads := rfl

/-! ## State.normalize writes WORK alone -/

@[simp] theorem State.normalize_seq (s : State) : s.normalize.seq = s.seq := by cases h : s.dir <;> simp [State.normalize, h]
@[simp] theorem State.normalize_reason (s : State) : s.normalize.reason = s.reason := by cases h : s.dir <;> simp [State.normalize, h]
@[simp] theorem State.normalize_dir (s : State) : s.normalize.dir = s.dir := by cases h : s.dir <;> simp [State.normalize, h]
@[simp] theorem State.normalize_valid (s : State) : s.normalize.valid = s.valid := by cases h : s.dir <;> simp [State.normalize, h]
@[simp] theorem State.normalize_trk (s : State) : s.normalize.trk = s.trk := by cases h : s.dir <;> simp [State.normalize, h]
@[simp] theorem State.normalize_count (s : State) : s.normalize.count = s.count := by cases h : s.dir <;> simp [State.normalize, h]
@[simp] theorem State.normalize_length (s : State) : s.normalize.length = s.length := by cases h : s.dir <;> simp [State.normalize, h]
@[simp] theorem State.normalize_erridx (s : State) : s.normalize.erridx = s.erridx := by cases h : s.dir <;> simp [State.normalize, h]
@[simp] theorem State.normalize_sspos (s : State) : s.normalize.sspos = s.sspos := by cases h : s.dir <;> simp [State.normalize, h]
@[simp] theorem State.normalize_endpos (s : State) : s.normalize.endpos = s.endpos := by cases h : s.dir <;> simp [State.normalize, h]
@[simp] theorem State.normalize_lrc (s : State) : s.normalize.lrc = s.lrc := by cases h : s.dir <;> simp [State.normalize, h]
@[simp] theorem State.normalize_raw (s : State) : s.normalize.raw = s.raw := by cases h : s.dir <;> simp [State.normalize, h]
@[simp] theorem State.normalize_text (s : State) : s.normalize.text = s.text := by cases h : s.dir <;> simp [State.normalize, h]
@[simp] theorem State.normalize_acc (s : State) : s.normalize.acc = s.acc := by cases h : s.dir <;> simp [State.normalize, h]
@[simp] theorem State.normalize_ndata (s : State) : s.normalize.ndata = s.ndata := by cases h : s.dir <;> simp [State.normalize, h]
@[simp] theorem State.normalize_refused (s : State) : s.normalize.refused = s.refused := by cases h : s.dir <;> simp [State.normalize, h]
@[simp] theorem State.normalize_cap (s : State) : s.normalize.cap = s.cap := by cases h : s.dir <;> simp [State.normalize, h]
@[simp] theorem State.normalize_draws (s : State) : s.normalize.draws = s.draws := by cases h : s.dir <;> simp [State.normalize, h]
@[simp] theorem State.normalize_resets (s : State) : s.normalize.resets = s.resets := by cases h : s.dir <;> simp [State.normalize, h]
@[simp] theorem State.normalize_program (s : State) : s.normalize.program = s.program := by cases h : s.dir <;> simp [State.normalize, h]
@[simp] theorem State.normalize_schedule (s : State) : s.normalize.schedule = s.schedule := by cases h : s.dir <;> simp [State.normalize, h]
@[simp] theorem State.normalize_reads (s : State) : s.normalize.reads = s.reads := by cases h : s.dir <;> simp [State.normalize, h]

/-! ## State.resume writes EXT's program alone -/

@[simp] theorem State.resume_seq (op : HostOp) (s : State) : (s.resume op).seq = s.seq := by
  cases op <;> simp [State.resume]
  split <;> rfl
@[simp] theorem State.resume_reason (op : HostOp) (s : State) : (s.resume op).reason = s.reason := by
  cases op <;> simp [State.resume]
  split <;> rfl
@[simp] theorem State.resume_dir (op : HostOp) (s : State) : (s.resume op).dir = s.dir := by
  cases op <;> simp [State.resume]
  split <;> rfl
@[simp] theorem State.resume_valid (op : HostOp) (s : State) : (s.resume op).valid = s.valid := by
  cases op <;> simp [State.resume]
  split <;> rfl
@[simp] theorem State.resume_trk (op : HostOp) (s : State) : (s.resume op).trk = s.trk := by
  cases op <;> simp [State.resume]
  split <;> rfl
@[simp] theorem State.resume_count (op : HostOp) (s : State) : (s.resume op).count = s.count := by
  cases op <;> simp [State.resume]
  split <;> rfl
@[simp] theorem State.resume_length (op : HostOp) (s : State) : (s.resume op).length = s.length := by
  cases op <;> simp [State.resume]
  split <;> rfl
@[simp] theorem State.resume_erridx (op : HostOp) (s : State) : (s.resume op).erridx = s.erridx := by
  cases op <;> simp [State.resume]
  split <;> rfl
@[simp] theorem State.resume_sspos (op : HostOp) (s : State) : (s.resume op).sspos = s.sspos := by
  cases op <;> simp [State.resume]
  split <;> rfl
@[simp] theorem State.resume_endpos (op : HostOp) (s : State) : (s.resume op).endpos = s.endpos := by
  cases op <;> simp [State.resume]
  split <;> rfl
@[simp] theorem State.resume_lrc (op : HostOp) (s : State) : (s.resume op).lrc = s.lrc := by
  cases op <;> simp [State.resume]
  split <;> rfl
@[simp] theorem State.resume_raw (op : HostOp) (s : State) : (s.resume op).raw = s.raw := by
  cases op <;> simp [State.resume]
  split <;> rfl
@[simp] theorem State.resume_work (op : HostOp) (s : State) : (s.resume op).work = s.work := by
  cases op <;> simp [State.resume]
  split <;> rfl
@[simp] theorem State.resume_text (op : HostOp) (s : State) : (s.resume op).text = s.text := by
  cases op <;> simp [State.resume]
  split <;> rfl
@[simp] theorem State.resume_acc (op : HostOp) (s : State) : (s.resume op).acc = s.acc := by
  cases op <;> simp [State.resume]
  split <;> rfl
@[simp] theorem State.resume_ndata (op : HostOp) (s : State) : (s.resume op).ndata = s.ndata := by
  cases op <;> simp [State.resume]
  split <;> rfl
@[simp] theorem State.resume_refused (op : HostOp) (s : State) : (s.resume op).refused = s.refused := by
  cases op <;> simp [State.resume]
  split <;> rfl
@[simp] theorem State.resume_cap (op : HostOp) (s : State) : (s.resume op).cap = s.cap := by
  cases op <;> simp [State.resume]
  split <;> rfl
@[simp] theorem State.resume_draws (op : HostOp) (s : State) : (s.resume op).draws = s.draws := by
  cases op <;> simp [State.resume]
  split <;> rfl
@[simp] theorem State.resume_resets (op : HostOp) (s : State) : (s.resume op).resets = s.resets := by
  cases op <;> simp [State.resume]
  split <;> rfl
@[simp] theorem State.resume_schedule (op : HostOp) (s : State) : (s.resume op).schedule = s.schedule := by
  cases op <;> simp [State.resume]
  split <;> rfl
@[simp] theorem State.resume_reads (op : HostOp) (s : State) : (s.resume op).reads = s.reads := by
  cases op <;> simp [State.resume]
  split <;> rfl

end Sys2Proof.Machine
end

