-- ==== Sys2Proof/Laws/Memory.lean ====
section
/-! SUPPORT. The laws of the buffers: a read after a write, the canonical form and the capacity, which every operation keeps. -/

namespace Sys2Proof.Machine

variable {α : Type}

/-! ## Reads after writes -/

@[simp] theorem Memory.read_nil (a : Nat) : Memory.read ([] : List (Nat × α)) a = none := rfl

theorem Memory.read_cons (b : Nat) (v : α) (m : List (Nat × α)) (a : Nat) :
    Memory.read ((b, v) :: m) a = if a = b then some v else Memory.read m a := rfl

@[simp] theorem Memory.read_write_same (m : List (Nat × α)) (a : Nat) (v : α) :
    Memory.read (Memory.write m a v) a = some v := by
  induction m with
  | nil => simp [Memory.write, Memory.read]
  | cons c m ih =>
    simp only [Memory.write]
    split
    · simp [Memory.read]
    · split
      · simp [Memory.read]
      · simp [Memory.read, *]

theorem Memory.read_write_other (m : List (Nat × α)) {a b : Nat} (v : α) (h : b ≠ a) :
    Memory.read (Memory.write m a v) b = Memory.read m b := by
  induction m with
  | nil => simp [Memory.write, Memory.read, h]
  | cons c m ih =>
    simp only [Memory.write]
    split
    · simp [Memory.read, h]
    · split
      · subst_vars; simp [Memory.read, h]
      · simp [Memory.read, ih]

theorem Memory.read_write (m : List (Nat × α)) (a b : Nat) (v : α) :
    Memory.read (Memory.write m a v) b = if b = a then some v else Memory.read m b := by
  by_cases h : b = a
  · subst h; simp
  · simp [h, Memory.read_write_other]

theorem Memory.read_writeFrom (vs : List α) (m : List (Nat × α)) (a b : Nat) :
    Memory.read (Memory.writeFrom m a vs) b =
      if a ≤ b then (vs[b - a]?).or (Memory.read m b) else Memory.read m b := by
  induction vs generalizing m a with
  | nil => simp [Memory.writeFrom]
  | cons v vs ih =>
    rw [Memory.writeFrom, ih, Memory.read_write]
    rcases lt_trichotomy b a with h | h | h
    · simp [show ¬ a + 1 ≤ b by omega, show ¬ a ≤ b by omega, show b ≠ a by omega]
    · subst h; simp
    · have e : b - a = (b - (a + 1)) + 1 := by omega
      simp [show a + 1 ≤ b by omega, show a ≤ b by omega, show b ≠ a by omega, e]

/-- A buffer written from address 0 reads as the sequence below its length and as before above it. -/
theorem Memory.read_writeFrom_zero (vs : List α) (m : List (Nat × α)) (b : Nat) :
    Memory.read (Memory.writeFrom m 0 vs) b = (vs[b]?).or (Memory.read m b) := by
  simp [Memory.read_writeFrom]

/-! ## The canonical form -/

theorem Memory.wf_iff_pairwise (m : List (Nat × α)) :
    Memory.wf m = true ↔ m.Pairwise fun c d => c.1 < d.1 := by
  induction m with
  | nil => simp [Memory.wf]
  | cons c m ih =>
    cases m with
    | nil => simp [Memory.wf]
    | cons d m =>
      rw [Memory.wf, Bool.and_eq_true, ih]
      constructor
      · rintro ⟨h, hp⟩
        refine List.pairwise_cons.2 ⟨fun e he => ?_, hp⟩
        rcases List.mem_cons.1 he with rfl | he
        · simpa using h
        · exact lt_trans (by simpa using h) ((List.pairwise_cons.1 hp).1 e he)
      · intro hp
        have h := List.pairwise_cons.1 hp
        exact ⟨by simpa using h.1 d (by simp), h.2⟩

theorem Memory.mem_write {m : List (Nat × α)} {a : Nat} {v : α} {c : Nat × α} (h : c ∈ Memory.write m a v) :
    c = (a, v) ∨ c ∈ m := by
  induction m with
  | nil => simpa [Memory.write] using h
  | cons d m ih =>
    simp only [Memory.write] at h
    split at h
    · simpa using h
    · split at h
      · rcases List.mem_cons.1 h with h | h <;> simp [h]
      · rcases List.mem_cons.1 h with h | h
        · simp [h]
        · rcases ih h with h | h <;> simp [h]

/-- A write keeps the addresses strictly rising. -/
theorem Memory.wf_write {m : List (Nat × α)} (h : Memory.wf m = true) (a : Nat) (v : α) :
    Memory.wf (Memory.write m a v) = true := by
  rw [Memory.wf_iff_pairwise] at h ⊢
  induction m with
  | nil => simp [Memory.write]
  | cons c m ih =>
    obtain ⟨h1, h2⟩ := List.pairwise_cons.1 h
    simp only [Memory.write]
    split
    case isTrue hlt =>
      refine List.pairwise_cons.2 ⟨fun e he => ?_, h⟩
      rcases List.mem_cons.1 he with rfl | he
      · exact hlt
      · exact lt_trans hlt (h1 e he)
    case isFalse hge =>
      split
      case isTrue heq => subst heq; exact List.pairwise_cons.2 ⟨h1, h2⟩
      case isFalse hne =>
        refine List.pairwise_cons.2 ⟨fun e he => ?_, ih h2⟩
        rcases Memory.mem_write he with rfl | he
        · show c.1 < a; omega
        · exact h1 e he

theorem Memory.wf_writeFrom {m : List (Nat × α)} (h : Memory.wf m = true) (a : Nat) (vs : List α) :
    Memory.wf (Memory.writeFrom m a vs) = true := by
  induction vs generalizing m a with
  | nil => exact h
  | cons v vs ih => exact ih (Memory.wf_write h a v) (a + 1)

/-- In canonical form, equal readings are equal buffers. -/
theorem Memory.ext_of_read {m k : List (Nat × α)} (hm : Memory.wf m = true) (hk : Memory.wf k = true)
    (h : ∀ a, Memory.read m a = Memory.read k a) : m = k := by
  have lower : ∀ {l : List (Nat × α)} {c : Nat × α} {a : Nat},
      (∀ d ∈ l, c.1 < d.1) → a ≤ c.1 → Memory.read l a = none := by
    intro l c a hl ha
    induction l with
    | nil => rfl
    | cons d l ih =>
      have := hl d (by simp)
      simp [Memory.read, show a ≠ d.1 by omega, ih (fun e he => hl e (by simp [he]))]
  rw [Memory.wf_iff_pairwise] at hm hk
  induction m generalizing k with
  | nil =>
    cases k with
    | nil => rfl
    | cons d k => have := h d.1; simp [Memory.read] at this
  | cons c m ih =>
    obtain ⟨hm1, hm2⟩ := List.pairwise_cons.1 hm
    cases k with
    | nil => have := h c.1; simp [Memory.read] at this
    | cons d k =>
      obtain ⟨hk1, hk2⟩ := List.pairwise_cons.1 hk
      have hc := h c.1
      have hd := h d.1
      simp only [Memory.read, if_true] at hc hd
      have e : c.1 = d.1 := by
        rcases lt_trichotomy c.1 d.1 with hlt | he | hgt
        · rw [if_neg (by omega), lower (c := d) hk1 (by omega)] at hc; cases hc
        · exact he
        · rw [if_neg (by omega), lower (c := c) hm1 (by omega)] at hd; cases hd
      rw [if_pos e] at hc
      have ecd : c = d := Prod.ext e (by simpa using hc)
      subst ecd
      congr 1
      refine ih hm2 hk2 fun a => ?_
      have ha := h a
      simp only [Memory.read] at ha
      by_cases hac : a = c.1
      · rw [lower (c := c) hm1 (by omega), lower (c := c) hk1 (by omega)]
      · simpa [hac] using ha

/-! ## Capacities -/

theorem Memory.below_iff (n : Nat) (m : List (Nat × α)) : Memory.below n m = true ↔ ∀ c ∈ m, c.1 < n := by
  simp [Memory.below]

theorem Memory.below_write {m : List (Nat × α)} {n : Nat} (h : Memory.below n m = true) {a : Nat} (ha : a < n) (v : α) :
    Memory.below n (Memory.write m a v) = true := by
  rw [Memory.below_iff] at h ⊢
  intro c hc
  rcases Memory.mem_write hc with rfl | hc
  · exact ha
  · exact h c hc

theorem Memory.below_writeFrom {m : List (Nat × α)} {n : Nat} (h : Memory.below n m = true) {a : Nat} {vs : List α}
    (ha : a + vs.length ≤ n) : Memory.below n (Memory.writeFrom m a vs) = true := by
  induction vs generalizing m a with
  | nil => exact h
  | cons v vs ih =>
    rw [List.length_cons] at ha
    exact ih (Memory.below_write h (by omega) v) (by omega)

/-! ## The buffers at reset -/

theorem Memory.wf_nil : Memory.wf ([] : List (Nat × α)) = true := rfl
theorem Memory.below_nil (n : Nat) : Memory.below n ([] : List (Nat × α)) = true := rfl

theorem State.reset_buffers_wf :
    Memory.wf State.reset.raw = true ∧ Memory.wf State.reset.work = true ∧ Memory.wf State.reset.text = true :=
  ⟨rfl, rfl, rfl⟩

end Sys2Proof.Machine
end

