-- ==== Sys2Proof/Laws/Bits.lean ====
section
/-! SUPPORT. The laws of frames, of the bit sequences copied into WORK and of LOCATE. -/

namespace Sys2Proof.Machine

/-! ## Formats -/

theorem Format.width_pos (f : Format) : 0 < f.width := by cases f <;> decide
theorem Format.five_le_width (f : Format) : 5 ≤ f.width := by cases f <;> decide
theorem Format.width_le (f : Format) : f.width ≤ 7 := by cases f <;> decide
theorem Format.width_eq (f : Format) : f.width = f.dataBits + 1 := by cases f <;> rfl
theorem Format.ss_ne_es (f : Format) : f.ss ≠ f.es := by cases f <;> decide

@[simp] theorem TrackCode.format_eq_none {t : TrackCode} : t.format = none ↔ t = .noTrack := by
  cases t <;> simp [TrackCode.format]

/-! ## Frames depend on their own bits alone (00_scope.md R10) -/

theorem frameSum_congr {bit bit' : Nat → Bool} {p W : Nat} (h : ∀ k, k < W → bit (p + k) = bit' (p + k)) :
    frameSum bit p W = frameSum bit' p W := by
  unfold frameSum
  congr 1
  apply List.map_congr_left
  intro k hk
  rw [h k (List.mem_range.1 hk)]

theorem frame_congr {bit bit' : Nat → Bool} {p W : Nat} (h : ∀ k, k < W → bit (p + k) = bit' (p + k)) :
    frame bit p W = frame bit' p W := by
  rw [frame, frameSum_congr h, frame]

theorem sentinelAt_congr {bit bit' : Nat → Bool} {n : Nat} {f : Format} {p : Nat} (h : ∀ i, i < n → bit i = bit' i)
    (hp : p + f.width ≤ n) : sentinelAt bit f p = sentinelAt bit' f p := by
  unfold sentinelAt
  rw [frame_congr fun k hk => h (p + k) (by omega)]

/-! ## LOCATE (43_sentinel_locator.md R130 to R134) -/

theorem locate_eq_some {bit : Nat → Bool} {n p : Nat} {f : Format} :
    locate bit n f = some p ↔
      p + f.width ≤ n ∧ sentinelAt bit f p = true ∧ ∀ q, q < p → sentinelAt bit f q = false := by
  have hw := f.width_pos
  rw [locate, List.find?_range_eq_some]
  constructor
  · rintro ⟨h1, h2, h3⟩
    exact ⟨by have := List.mem_range.1 h2; omega, h1, fun q hq => by simpa using h3 q hq⟩
  · rintro ⟨h1, h2, h3⟩
    exact ⟨h2, List.mem_range.2 (by omega), fun q hq => by simp [h3 q hq]⟩

theorem locate_eq_none {bit : Nat → Bool} {n : Nat} {f : Format} :
    locate bit n f = none ↔ ∀ p, p + f.width ≤ n → sentinelAt bit f p = false := by
  have hw := f.width_pos
  rw [locate, List.find?_eq_none]
  constructor
  · intro h p hp
    simpa using h p (List.mem_range.2 (by omega))
  · intro h p hp
    have := List.mem_range.1 hp
    simp [h p (by omega)]

/-- LOCATE depends on the n valid bits alone (R130: "a pure function of buf[0..n-1] and f"). -/
theorem locate_congr {bit bit' : Nat → Bool} {n : Nat} {f : Format} (h : ∀ i, i < n → bit i = bit' i) :
    locate bit n f = locate bit' n f := by
  cases h' : locate bit' n f with
  | none =>
    rw [locate_eq_none] at h' ⊢
    exact fun p hp => (sentinelAt_congr h hp).trans (h' p hp)
  | some p =>
    rw [locate_eq_some] at h' ⊢
    obtain ⟨h1, h2, h3⟩ := h'
    exact ⟨h1, (sentinelAt_congr h h1).trans h2, fun q hq => (sentinelAt_congr h (by omega)).trans (h3 q hq)⟩

theorem locate_lt {bit : Nat → Bool} {n p : Nat} {f : Format} (h : locate bit n f = some p) : p + f.width ≤ n :=
  (locate_eq_some.1 h).1

/-! ## What the copies put into WORK (41_direction_detector.md R111, R112) -/

@[simp] theorem length_bitsOf (bit : Nat → Bool) (n : Nat) : (bitsOf bit n).length = n := by simp [bitsOf]
@[simp] theorem length_reverseBits (bit : Nat → Bool) (n : Nat) : (reverseBits bit n).length = n := by simp [reverseBits]

theorem State.length_capturedBits (s : State) : s.capturedBits.length = s.count.toNat := length_bitsOf _ _
theorem State.length_reversedBits (s : State) : s.reversedBits.length = s.count.toNat := length_reverseBits _ _

theorem State.copyRaw_workBit (s : State) {i : Nat} (h : i < s.count.toNat) : s.copyRaw.workBit i = s.rawBit i := by
  simp [State.workBit, Memory.read_writeFrom_zero, bitsOf, h]

theorem State.copyRaw_workBit_above (s : State) {i : Nat} (h : s.count.toNat ≤ i) : s.copyRaw.workBit i = s.workBit i := by
  simp [State.workBit, Memory.read_writeFrom_zero, bitsOf, h]

theorem State.copyRawReversed_workBit (s : State) {i : Nat} (h : i < s.count.toNat) :
    s.copyRawReversed.workBit i = s.rawBit (s.count.toNat - 1 - i) := by
  simp [State.workBit, Memory.read_writeFrom_zero, reverseBits, h]

theorem State.copyRawReversed_workBit_above (s : State) {i : Nat} (h : s.count.toNat ≤ i) :
    s.copyRawReversed.workBit i = s.workBit i := by
  simp [State.workBit, Memory.read_writeFrom_zero, reverseBits, h]

/-! ## Reading a buffer depends on the buffer alone -/

theorem State.rawBit_eq {s t : State} (h : t.raw = s.raw) (hr : t.resets = s.resets) : t.rawBit = s.rawBit := by
  funext i; simp [State.rawBit, h, hr]

theorem State.workBit_eq {s t : State} (h : t.work = s.work) (hr : t.resets = s.resets) : t.workBit = s.workBit := by
  funext i; simp [State.workBit, h, hr]

theorem State.textByte_eq {s t : State} (h : t.text = s.text) (hr : t.resets = s.resets) : t.textByte = s.textByte := by
  funext i; simp [State.textByte, h, hr]

end Sys2Proof.Machine
end

