-- ==== Sys2Proof/Laws/Encoding.lean ====
section
/-! SUPPORT. The fields of a host word and of a command word: what the encoder puts in, the decoder's field functions get out. -/

namespace Sys2Proof

/-- A host word as a number (30_encoding.md R80). -/
theorem toNat_ht35Word (rw : BitVec 1) (space : BitVec 2) (addr data : Reg) :
    (ht35Word rw space addr data).toNat =
      rw.toNat * 2 ^ 34 + space.toNat * 2 ^ 32 + addr.toNat * 2 ^ 16 + data.toNat := by
  show (rw ++ space ++ addr ++ data : BitVec (1 + 2 + 16 + 16)).toNat = _
  have h1 := rw.isLt; have h2 := space.isLt; have h3 := addr.isLt; have h4 := data.isLt
  rw [BitVec.toNat_append, BitVec.toNat_append, BitVec.toNat_append,
    ← Nat.shiftLeft_add_eq_or_of_lt h4, ← Nat.shiftLeft_add_eq_or_of_lt h3, ← Nat.shiftLeft_add_eq_or_of_lt h2]
  simp only [Nat.shiftLeft_eq]
  omega

@[simp] theorem ht35Rw_word (rw : BitVec 1) (space : BitVec 2) (addr data : Reg) :
    ht35Rw (ht35Word rw space addr data) = rw := by
  apply BitVec.eq_of_toNat_eq
  have h1 := rw.isLt; have h2 := space.isLt; have h3 := addr.isLt; have h4 := data.isLt
  simp only [ht35Rw, BitVec.extractLsb'_toNat, toNat_ht35Word, Nat.shiftRight_eq_div_pow]
  omega

@[simp] theorem ht35Space_word (rw : BitVec 1) (space : BitVec 2) (addr data : Reg) :
    ht35Space (ht35Word rw space addr data) = space := by
  apply BitVec.eq_of_toNat_eq
  have h1 := rw.isLt; have h2 := space.isLt; have h3 := addr.isLt; have h4 := data.isLt
  simp only [ht35Space, BitVec.extractLsb'_toNat, toNat_ht35Word, Nat.shiftRight_eq_div_pow]
  omega

@[simp] theorem ht35Addr_word (rw : BitVec 1) (space : BitVec 2) (addr data : Reg) :
    ht35Addr (ht35Word rw space addr data) = addr := by
  apply BitVec.eq_of_toNat_eq
  have h1 := rw.isLt; have h2 := space.isLt; have h3 := addr.isLt; have h4 := data.isLt
  simp only [ht35Addr, BitVec.extractLsb'_toNat, toNat_ht35Word, Nat.shiftRight_eq_div_pow]
  omega

@[simp] theorem ht35Data_word (rw : BitVec 1) (space : BitVec 2) (addr data : Reg) :
    ht35Data (ht35Word rw space addr data) = data := by
  apply BitVec.eq_of_toNat_eq
  have h1 := rw.isLt; have h2 := space.isLt; have h3 := addr.isLt; have h4 := data.isLt
  simp only [ht35Data, BitVec.extractLsb'_toNat, toNat_ht35Word, Nat.shiftRight_eq_div_pow]
  omega

/-- A host word is made of its four fields. -/
theorem ht35Word_fields (w : Ht35) : ht35Word (ht35Rw w) (ht35Space w) (ht35Addr w) (ht35Data w) = w := by
  apply BitVec.eq_of_toNat_eq
  have h := w.isLt
  simp only [toNat_ht35Word, ht35Rw, ht35Space, ht35Addr, ht35Data, BitVec.extractLsb'_toNat, Nat.shiftRight_eq_div_pow]
  omega

/-- A word of the format HT35 fits a row when its bits under the row's mask are the row's match. -/
theorem OpcodeRow.fits_of_fields {w : Ht35} {r : OpcodeRow} (hm : r.maskBits < 2 ^ 35) (hx : r.matchBits < 2 ^ 35)
    (h : w &&& BitVec.ofNat 35 r.maskBits = BitVec.ofNat 35 r.matchBits) : r.fits w.toNat = true := by
  have h := congrArg BitVec.toNat h
  rw [BitVec.toNat_and, BitVec.toNat_ofNat, BitVec.toNat_ofNat, Nat.mod_eq_of_lt hm, Nat.mod_eq_of_lt hx] at h
  simpa [OpcodeRow.fits] using h

/-- Masking a host word masks each field. -/
theorem ht35Word_and (rw rw' : BitVec 1) (space space' : BitVec 2) (addr addr' data data' : Reg) :
    ht35Word rw space addr data &&& ht35Word rw' space' addr' data' =
      ht35Word (rw &&& rw') (space &&& space') (addr &&& addr') (data &&& data') := by
  show (rw ++ space ++ addr ++ data : BitVec (1 + 2 + 16 + 16)) &&& (rw' ++ space' ++ addr' ++ data') =
    (rw &&& rw') ++ (space &&& space') ++ (addr &&& addr') ++ (data &&& data')
  simp only [BitVec.and_append]

end Sys2Proof
end

