-- ==== Sys2Proof/Laws/Framer.lean ====
section
/-! SUPPORT. What a pass of DECODE_CHARS can do, and the induction over its passes, once (44_character_framer.md R146, R152). -/

namespace Sys2Proof.Machine

variable {bit : Nat → Bool} {n : Nat} {f : Format}

/-- The frame at the cursor lies within the n valid bits and has odd parity. -/
def FramerVars.sound (bit : Nat → Bool) (n : Nat) (f : Format) (r : FramerVars) : Prop :=
  r.cur + f.width ≤ n ∧ oddParity (frame bit r.cur f.width) f.width = true

/-- The data value of the frame at the cursor. -/
def FramerVars.value (bit : Nat → Bool) (f : Format) (r : FramerVars) : DataVal :=
  dataField (frame bit r.cur f.width) f.dataBits

/-- The four ways the loop's pass can go, with their guards (R144 to R148). -/
theorem framerPass_cases (bit : Nat → Bool) (n : Nat) (f : Format) (r : FramerVars) :
    (n < r.cur + f.width ∧ framerPass bit n f r = .stop (.failed .truncated r)) ∨
    (r.cur + f.width ≤ n ∧ oddParity (frame bit r.cur f.width) f.width = false ∧
      framerPass bit n f r = .stop (.failed .parityError r)) ∨
    (r.sound bit n f ∧ r.idx = 0 ∧
      framerPass bit n f r = .more { r with cur := r.cur + f.width, idx := 1 }) ∨
    (r.sound bit n f ∧ r.idx ≠ 0 ∧ r.value bit f = f.es ∧ framerPass bit n f r = .stop (.ended r)) ∨
    (r.sound bit n f ∧ r.idx ≠ 0 ∧ r.value bit f ≠ f.es ∧
      framerPass bit n f r = .more
        { cur := r.cur + f.width, idx := r.idx + 1, nd := r.nd + 1, acc := r.acc ^^^ r.value bit f,
          text := Memory.write r.text r.nd (asciiByte f (r.value bit f)) }) := by
  by_cases h1 : n < r.cur + f.width
  · exact .inl ⟨h1, by simp [framerPass, h1]⟩
  have h1' : r.cur + f.width ≤ n := by omega
  by_cases h2 : oddParity (frame bit r.cur f.width) f.width = true
  · by_cases h3 : r.idx = 0
    · refine .inr (.inr (.inl ⟨⟨h1', h2⟩, h3, ?_⟩))
      simp [framerPass, h1, h2, h3, accumulate, Config.lrcIncludeSs]
    · by_cases h4 : r.value bit f = f.es
      · refine .inr (.inr (.inr (.inl ⟨⟨h1', h2⟩, h3, h4, ?_⟩)))
        unfold FramerVars.value at h4
        simp [framerPass, h1, h2, h3, h4, accumulate, Config.lrcIncludeEs]
      · refine .inr (.inr (.inr (.inr ⟨⟨h1', h2⟩, h3, h4, ?_⟩)))
        unfold FramerVars.value at h4 ⊢
        simp [framerPass, h1, h2, h3, h4, accumulate]
  · exact .inr (.inl ⟨h1', by simpa using h2, by simp [framerPass, h1, h2]⟩)

/-- A pass that goes on moves the cursor by one frame and the index by one. -/
theorem framerPass_more {r r' : FramerVars} (h : framerPass bit n f r = .more r') :
    r.cur + f.width ≤ n ∧ r'.cur = r.cur + f.width ∧ r'.idx = r.idx + 1 := by
  rcases framerPass_cases bit n f r with ⟨_, e⟩ | ⟨_, _, e⟩ | ⟨hs, h0, e⟩ | ⟨_, _, _, e⟩ | ⟨hs, _, _, e⟩
  · rw [e] at h; cases h
  · rw [e] at h; cases h
  · rw [e] at h; cases h; exact ⟨hs.1, rfl, by simp [h0]⟩
  · rw [e] at h; cases h
  · rw [e] at h; cases h; exact ⟨hs.1, rfl, rfl⟩

/-- The induction over passes: a fact about the loop variables that every pass keeps holds where the loop ends, and with enough
fuel the loop ends by a pass that stops. -/
theorem framerLoop_ends {P : FramerVars → Prop} (step : ∀ r r', P r → framerPass bit n f r = .more r' → P r')
    (fuel : Nat) (r : FramerVars) (hr : P r) (hf : n < r.cur + fuel * f.width) :
    ∃ r', P r' ∧ framerPass bit n f r' = .stop (framerLoop bit n f fuel r) := by
  induction fuel generalizing r with
  | zero =>
    refine ⟨r, hr, ?_⟩
    have : n < r.cur + f.width := by have := f.width_pos; omega
    simp [framerPass, framerLoop, this]
  | succ fuel ih =>
    cases hp : framerPass bit n f r with
    | stop e => exact ⟨r, hr, by simp [framerLoop, hp]⟩
    | more r' =>
      obtain ⟨_, hc, _⟩ := framerPass_more hp
      obtain ⟨q, hq, he⟩ := ih r' (step r r' hr hp) (by rw [hc, Nat.add_assoc]; rw [Nat.succ_mul] at hf; omega)
      exact ⟨q, hq, by simpa [framerLoop, hp] using he⟩

/-- The fuel of the stage is enough (R152). -/
theorem framerFuel_enough (n start : Nat) (f : Format) : n < start + framerFuel n start f * f.width := by
  have h := Nat.div_add_mod (n - start) f.width
  have := Nat.mod_lt (n - start) f.width_pos
  rw [framerFuel, Nat.add_mul, Nat.mul_comm]
  omega

/-- The loop of DECODE_CHARS ends by a stopping pass, whose variables have every property that the start has and passes keep. -/
theorem State.frameChars_ends {s : State} {f : Format} {P : FramerVars → Prop} (start : P s.framerStart)
    (step : ∀ r r', P r → framerPass s.workBit s.count.toNat f r = .more r' → P r') :
    ∃ r, P r ∧ framerPass s.workBit s.count.toNat f r = .stop (s.frameChars f) :=
  framerLoop_ends step _ _ start (framerFuel_enough _ _ _)

/-- The cursor stands at the frame of the index, and all but the first frame passed were data (R150). -/
theorem State.framerVars_track (s : State) (f : Format) (r r' : FramerVars)
    (hr : r.cur = s.sspos.toNat + r.idx * f.width ∧ r.nd = r.idx - 1)
    (h : framerPass s.workBit s.count.toNat f r = .more r') :
    r'.cur = s.sspos.toNat + r'.idx * f.width ∧ r'.nd = r'.idx - 1 := by
  obtain ⟨_, hc, hi⟩ := framerPass_more h
  refine ⟨by rw [hc, hi, hr.1, Nat.add_mul]; omega, ?_⟩
  rcases framerPass_cases s.workBit s.count.toNat f r with
    ⟨_, e⟩ | ⟨_, _, e⟩ | ⟨_, h0, e⟩ | ⟨_, _, _, e⟩ | ⟨_, h0, _, e⟩ <;> rw [e] at h <;> cases h
  · simp [hr.2, h0]
  · simp [hr.2]; omega

end Sys2Proof.Machine
end

