-- ==== Sys2Proof/Laws/Exec.lean ====
section
/-! SUPPORT. What each shared operation and each stage can do when it answers a next state, said once. -/

namespace Sys2Proof.Machine

/-! ## Shared operations -/

theorem State.withFormat_some {s : State} {f : Format} (h : s.trk.format = some f) (k : Format → Result) :
    s.withFormat k = k f := by simp [State.withFormat, h]

theorem State.withFormat_none {s : State} (h : s.trk.format = none) (k : Format → Result) :
    s.withFormat k = .fault .noFormat := by simp [State.withFormat, h]

/-- A stage that answers a next state ran under a latched format. -/
theorem State.withFormat_next {s t : State} {k : Format → Result} (h : s.withFormat k = .next t) :
    ∃ f, s.trk.format = some f ∧ k f = .next t := by
  cases hf : s.trk.format with
  | none => rw [State.withFormat_none hf] at h; cases h
  | some f => exact ⟨f, rfl, by rwa [State.withFormat_some hf] at h⟩

/-- A result register's read returns one value, the register's when BUSY = 0, and may use one draw; nothing else changes. -/
theorem State.readResult_eq (v : Reg) (s : State) :
    (s.busy = false ∧ s.readResult v = .next (s.returnRead v)) ∨
    (s.busy = true ∧ s.readResult v = .next ((s.useDraws 1).returnRead (freeBits 16 s.draws))) := by
  cases h : s.busy <;> simp [State.readResult, h]

/-- A DECODE is refused while BUSY and accepted otherwise. -/
theorem State.startDecode_eq (t : TrackCode) (s : State) :
    (s.busy = false ∧ s.startDecode t = .next (s.accept t)) ∨ (s.busy = true ∧ s.startDecode t = .next s.refuse) := by
  cases h : s.busy <;> simp [State.startDecode, h]

/-! ## LOCATE on the copies, in terms of RAW (41_direction_detector.md R111, R112) -/

theorem State.copyRaw_locate (s : State) (f : Format) :
    s.copyRaw.locateInWork f = locate s.rawBit s.count.toNat f :=
  locate_congr fun _ hi => s.copyRaw_workBit hi

theorem State.copyRawReversed_locate (s : State) (f : Format) :
    s.copyRawReversed.locateInWork f = locate (fun i => s.rawBit (s.count.toNat - 1 - i)) s.count.toNat f :=
  locate_congr fun _ hi => s.copyRawReversed_workBit hi

/-- RAW is read through the written cells and the reset count alone, so the copies leave its readings alone. -/
theorem State.copyRaw_rawBit (s : State) : s.copyRaw.rawBit = s.rawBit := State.rawBit_eq rfl rfl
theorem State.copyRawReversed_rawBit (s : State) : s.copyRawReversed.rawBit = s.rawBit := State.rawBit_eq rfl rfl

/-! ## The stages -/

/-- DETECT's three outcomes (R110). -/
theorem execDetect_cases {s : State} {f : Format} (hf : s.trk.format = some f) :
    (∃ p, locate s.rawBit s.count.toNat f = some p ∧ execDetect s = .next (s.copyRaw.detected .forward)) ∨
    (locate s.rawBit s.count.toNat f = none ∧
      ∃ p, locate (fun i => s.rawBit (s.count.toNat - 1 - i)) s.count.toNat f = some p ∧
        execDetect s = .next (s.copyRaw.copyRawReversed.detected .backward)) ∨
    (locate s.rawBit s.count.toNat f = none ∧
      locate (fun i => s.rawBit (s.count.toNat - 1 - i)) s.count.toNat f = none ∧
        execDetect s = .next (State.fail .noSentinel 0 { s.copyRaw.copyRawReversed with dir := .unknown })) := by
  unfold execDetect
  rw [State.withFormat_some hf]
  cases h1 : s.copyRaw.locateInWork f with
  | some p => exact .inl ⟨p, by rw [← s.copyRaw_locate, h1], rfl⟩
  | none =>
    have h1' : locate s.rawBit s.count.toNat f = none := by rw [← s.copyRaw_locate, h1]
    have e : s.copyRaw.copyRawReversed.locateInWork f =
        locate (fun i => s.rawBit (s.count.toNat - 1 - i)) s.count.toNat f := by
      rw [State.copyRawReversed_locate, State.copyRaw_rawBit]; rfl
    cases h2 : s.copyRaw.copyRawReversed.locateInWork f with
    | some p => exact .inr (.inl ⟨h1', p, by rw [← e, h2], by simp⟩)
    | none => exact .inr (.inr ⟨h1', by rw [← e, h2], by simp⟩)

/-- NORMLOC's two outcomes (R135, R136). -/
theorem execNormloc_cases {s : State} {f : Format} (hf : s.trk.format = some f) :
    (∃ p, s.normalize.locateInWork f = some p ∧ execNormloc s = .next (s.normalize.located p)) ∨
    (s.normalize.locateInWork f = none ∧ execNormloc s = .fault .sentinelLost) := by
  unfold execNormloc
  rw [State.withFormat_some hf]
  cases h : s.normalize.locateInWork f with
  | some p => exact .inl ⟨p, rfl, rfl⟩
  | none => exact .inr ⟨rfl, rfl⟩

/-- DECODE_CHARS' outcomes: what its loop ends in (R146). -/
theorem execDecodeChars_cases {s : State} {f : Format} (hf : s.trk.format = some f) :
    (∃ r, s.frameChars f = .ended r ∧ execDecodeChars s = .next (s.charsDecoded f r)) ∨
    (∃ why r, s.frameChars f = .failed why r ∧
      execDecodeChars s = .next (State.fail why r.idx { s with text := r.text })) := by
  unfold execDecodeChars
  rw [State.withFormat_some hf]
  cases h : s.frameChars f with
  | ended r => exact .inl ⟨r, rfl, rfl⟩
  | failed why r => exact .inr ⟨why, r, rfl, rfl⟩

/-- LRC_CHECK's outcome (R162). -/
theorem execLrcCheck_eq {s : State} {f : Format} (hf : s.trk.format = some f) :
    execLrcCheck s = .next { s with
      lrc := lrcLayout (s.lrcObserved f) (s.lrcPresent f) (lrcExpected f s.acc), valid := s.lrcMatch f,
      seq := .checksumChecked } := by
  unfold execLrcCheck
  rw [State.withFormat_some hf]

end Sys2Proof.Machine
end

