-- ==== Sys2Proof/Laws/PerInstr.lean ====
section
/-! SUPPORT. The family TableRow: an instruction's word fits its own row of spec/opcode_table.json, one lemma per constructor. -/

namespace Sys2Proof.Laws.TableRow

/-- The word of the instruction matches the mask and match of the row with the instruction's mnemonic. -/
def Statement (i : Instr) : Prop := ∃ r ∈ rowsFitting (encode i), r.mnemonic = i.mnemonic

theorem rdCmd : Statement .rdCmd := by unfold Statement; decide
theorem rdStatus : Statement .rdStatus := by unfold Statement; decide
theorem rdCount : Statement .rdCount := by unfold Statement; decide
theorem rdLength : Statement .rdLength := by unfold Statement; decide
theorem rdErridx : Statement .rdErridx := by unfold Statement; decide
theorem rdSspos : Statement .rdSspos := by unfold Statement; decide
theorem rdEndpos : Statement .rdEndpos := by unfold Statement; decide
theorem rdLrc : Statement .rdLrc := by unfold Statement; decide
theorem decodeT1 : Statement .decodeT1 := by unfold Statement; decide
theorem decodeT2 : Statement .decodeT2 := by unfold Statement; decide
theorem decodeT3 : Statement .decodeT3 := by unfold Statement; decide

/-- A host word fits a row of the table that its masked fields equal. -/
theorem of_row {w : Ht35} {i : Instr} (he : encode i = .ht35 w) (r : OpcodeRow) (hr : r ∈ ht35Rows)
    (hm : r.mnemonic = i.mnemonic) (hb : r.maskBits < 2 ^ 35 ∧ r.matchBits < 2 ^ 35)
    (h : w &&& BitVec.ofNat 35 r.maskBits = BitVec.ofNat 35 r.matchBits) : Statement i := by
  refine ⟨r, ?_, hm⟩
  rw [he, rowsFitting, List.mem_filter]
  exact ⟨hr, OpcodeRow.fits_of_fields hb.1 hb.2 h⟩

theorem wrCount (n : Reg) : Statement (.wrCount n) := by
  refine of_row rfl ⟨"WR_COUNT", 0x400020000, 0x7FFFF0000⟩ (by decide) rfl (by decide) ?_
  rw [show BitVec.ofNat 35 0x7FFFF0000 = ht35Word 1 3 0xFFFF 0#16 from rfl, ht35Word_and, BitVec.and_zero]
  rfl

theorem wrRaw (i : Reg) (b : Bool) : Statement (.wrRaw i b) := by
  refine of_row rfl ⟨"WRRAW", 0x500000000, 0x70000FFFE⟩ (by decide) rfl (by decide) ?_
  rw [show BitVec.ofNat 35 0x70000FFFE = ht35Word 1 3 0#16 0xFFFE from rfl, ht35Word_and, BitVec.and_zero]
  cases b <;> rfl

theorem rdRaw (i : Reg) : Statement (.rdRaw i) := by
  refine of_row rfl ⟨"RDRAW", 0x100000000, 0x70000FFFF⟩ (by decide) rfl (by decide) ?_
  rw [show BitVec.ofNat 35 0x70000FFFF = ht35Word 1 3 0#16 0xFFFF from rfl, ht35Word_and, BitVec.and_zero]
  rfl

theorem rdText (n : Reg) : Statement (.rdText n) := by
  refine of_row rfl ⟨"RDTEXT", 0x200000000, 0x70000FFFF⟩ (by decide) rfl (by decide) ?_
  rw [show BitVec.ofNat 35 0x70000FFFF = ht35Word 1 3 0#16 0xFFFF from rfl, ht35Word_and, BitVec.and_zero]
  rfl

theorem detect : Statement .detect := by unfold Statement; decide
theorem normloc : Statement .normloc := by unfold Statement; decide
theorem decodeChars : Statement .decodeChars := by unfold Statement; decide
theorem lrcCheck : Statement .lrcCheck := by unfold Statement; decide
theorem publish : Statement .publish := by unfold Statement; decide

end Sys2Proof.Laws.TableRow
end

