-- ==== Sys2Proof/Laws/Step.lean ====
section
/-! SUPPORT. What one step can do, said once: whose turn it was and what ran (20_memory.md R72). -/

namespace Sys2Proof.Machine

/-! ## The stage that STATUS.STATE selects (30_encoding.md R90) -/

/-- The five stages and the sequencer states that select them. -/
theorem decodeStage_code (q : SeqState) :
    (q.busy = false ∧ decodeStage q.code = .error .noEngineStage) ∨
    (q = .accepted ∧ decodeStage q.code = .ok .detect) ∨
    (q = .directionDetected ∧ decodeStage q.code = .ok .normloc) ∨
    (q = .sentinelFound ∧ decodeStage q.code = .ok .decodeChars) ∨
    (q = .charactersDecoded ∧ decodeStage q.code = .ok .lrcCheck) ∨
    (q = .checksumChecked ∧ decodeStage q.code = .ok .publish) := by
  cases q <;> decide

/-- The code of a sequencer state determines it. -/
@[simp] theorem seqStateOfCode_code (q : SeqState) : seqStateOfCode q.code = q := by cases q <;> rfl

/-! ## Turns -/

theorem State.nextMove_engine {s : State} (h : s.nextTurn = some .engine) : s.nextMove = s.popTurn.engineMove := by
  simp [State.nextMove, h]

theorem State.nextMove_ext {s : State} (h : s.nextTurn = some .ext) : s.nextMove = s.popTurn.extMove := by
  simp [State.nextMove, h]

theorem State.nextMove_reset {s : State} (h : s.nextTurn = some .reset) : s.nextMove = .settle s.popTurn.resetBlock := by
  simp [State.nextMove, h]

theorem State.nextMove_nobody {s : State} (h : s.nextTurn = none) : s.nextMove = .settle s := by
  simp [State.nextMove, h]

/-- EXT's move on its program's head. -/
theorem State.extMove_cons {s : State} {op : HostOp} {ops : List HostOp} (h : s.program = op :: ops) :
    s.extMove = s.popProgram.hostMove op := by simp [State.extMove, h]

/-- The move of a word that names an instruction, and of one that names none. -/
theorem State.hostMove_cases (op : HostOp) (s : State) :
    (∃ e, decodeHt35 op.word = .error e ∧ s.hostMove op = .settle s.refuse) ∨
    (∃ i, decodeHt35 op.word = .ok i ∧ (s.hostMove op = .run i s ∨ s.hostMove op = .poll op i s)) := by
  cases h : decodeHt35 op.word with
  | error e => exact .inl ⟨e, rfl, by simp [State.hostMove, h]⟩
  | ok i => refine .inr ⟨i, rfl, ?_⟩; cases op <;> simp [State.hostMove, h]

/-- A poll that answers a next state ran its read and resumed EXT. -/
theorem resumeOutcome_next {op : HostOp} {r : Result} {t : State} (h : resumeOutcome op r = .next t) :
    ∃ u, r = .next u ∧ t = u.resume op := by
  cases r <;> simp [resumeOutcome] at h
  exact ⟨_, rfl, h.symm⟩

/-- Everything a step can do: nothing but the use of a turn; a reset; a stage; a refused word; a transaction; a poll. -/
theorem step_cases {s t : State} (h : step s = .next t) :
    (t = s ∧ s.nextTurn = none) ∨
    (t = s.popTurn ∧ s.nextTurn ≠ none) ∨
    (t = s.popTurn.resetBlock ∧ s.nextTurn = some .reset) ∨
    (s.nextTurn = some .engine ∧ ∃ i, decodeStage s.seq.code = .ok i ∧ exec i s.popTurn = .next t) ∨
    (s.nextTurn = some .ext ∧ ∃ op ops, s.program = op :: ops ∧
      ((t = s.popTurn.popProgram.refuse ∧ ∃ e, decodeHt35 op.word = .error e) ∨
       ∃ i, decodeHt35 op.word = .ok i ∧
        (exec i s.popTurn.popProgram = .next t ∨
         ∃ u, exec i s.popTurn.popProgram = .next u ∧ t = u.resume op))) := by
  cases hn : s.nextTurn with
  | none =>
    rw [step, State.nextMove_nobody hn] at h
    cases h; exact .inl ⟨rfl, rfl⟩
  | some turn =>
    cases turn with
    | reset =>
      rw [step, State.nextMove_reset hn] at h
      cases h; exact .inr (.inr (.inl ⟨rfl, rfl⟩))
    | engine =>
      rw [step, State.nextMove_engine hn] at h
      cases hd : decodeStage s.seq.code with
      | error e =>
        simp only [State.engineMove, State.popTurn_seq, hd] at h
        cases h; exact .inr (.inl ⟨rfl, by simp⟩)
      | ok i =>
        simp only [State.engineMove, State.popTurn_seq, hd] at h
        exact .inr (.inr (.inr (.inl ⟨rfl, i, rfl, h⟩)))
    | ext =>
      rw [step, State.nextMove_ext hn] at h
      cases hp : s.program with
      | nil =>
        simp only [State.extMove, State.popTurn_program, hp] at h
        cases h; exact .inr (.inl ⟨rfl, by simp⟩)
      | cons op ops =>
        rw [State.extMove_cons (s := s.popTurn) (by simpa using hp)] at h
        refine .inr (.inr (.inr (.inr ⟨rfl, op, ops, rfl, ?_⟩)))
        rcases State.hostMove_cases op s.popTurn.popProgram with ⟨e, he, hm⟩ | ⟨i, hi, hm | hm⟩ <;>
          rw [hm] at h
        · cases h; exact .inl ⟨rfl, e, he⟩
        · exact .inr ⟨i, hi, .inl h⟩
        · obtain ⟨u, hu, ht⟩ := resumeOutcome_next h
          exact .inr ⟨i, hi, .inr ⟨u, hu, ht⟩⟩

end Sys2Proof.Machine
end

