-- ==== Sys2Proof/Laws/Work.lean ====
section
/-! SUPPORT. What the counters of 70_reset_and_hazards.md R239 count, said once. -/

namespace Sys2Proof.Machine

/-- LOCATE tests no more windows than there are (43_sentinel_locator.md R131). -/
theorem locateCompares_le (bit : Nat → Bool) (n : Nat) (f : Format) : locateCompares bit n f ≤ n + 1 - f.width := by
  unfold locateCompares
  split
  · have := locate_lt ‹_›
    omega
  · exact Nat.le_refl _

/-- NORMALIZE copies every valid bit once, in either direction (42_bit_reversal.md R122). -/
theorem State.normlocCopies_eq (s : State) : s.normlocCopies = s.count.toNat := by
  unfold State.normlocCopies
  split <;> simp [State.length_capturedBits, State.length_reversedBits]

/-- At most one frame is the LRC frame (45_lrc_engine.md R163). -/
theorem State.lrcFrames_le (s : State) (f : Format) : s.lrcFrames f ≤ 1 := by
  unfold State.lrcFrames
  split <;> simp

end Sys2Proof.Machine
end

