-- ==== Sys2Proof/Tests/Slice0.lean ====
section
/-! SUPPORT. Tests: words written out from 30_encoding.md, the range checks, one step per instruction on small states with the
results of 95_test_vectors.md, and a witness for the hypotheses of each obligation. -/

namespace Sys2Proof.Tests

open Sys2Proof Sys2Proof.Machine

/-! ## Decoding: words bit by bit from R80 (RW, SPACE, ADDR, DATA), R81 and R90 -/

/-- RD STATUS: RW 0, SPACE 00, ADDR 1. RD LRC: ADDR 7. -/
theorem test_decode_register_reads :
    decodeHt35 0b00000000000000000010000000000000000 = .ok .rdStatus ∧
    decodeHt35 0b00000000000000001110000000000000000 = .ok .rdLrc := by decide

/-- DECODE T1 and T3: RW 1, SPACE 00, ADDR 0, DATA 0x0011 and 0x0013. -/
theorem test_decode_commands :
    decodeHt35 0b10000000000000000000000000000010001 = .ok .decodeT1 ∧
    decodeHt35 0b10000000000000000000000000000010011 = .ok .decodeT3 := by decide

/-- WR COUNT, 5 and WRRAW 9, 1. -/
theorem test_decode_writes :
    decodeHt35 0b10000000000000000100000000000000101 = .ok (.wrCount 5) ∧
    decodeHt35 0b10100000000000010010000000000000001 = .ok (.wrRaw 9 true) := by decide

/-- RDRAW 6 and RDTEXT 3. -/
theorem test_decode_buffer_reads :
    decodeHt35 0b00100000000000001100000000000000000 = .ok (.rdRaw 6) ∧
    decodeHt35 0b01000000000000000110000000000000000 = .ok (.rdText 3) := by decide

/-- STATUS[2:0] = 1 to 5, and 0, 6, 7 (R90). -/
theorem test_decode_stages :
    decodeStage 0b001 = .ok .detect ∧ decodeStage 0b010 = .ok .normloc ∧ decodeStage 0b011 = .ok .decodeChars ∧
    decodeStage 0b100 = .ok .lrcCheck ∧ decodeStage 0b101 = .ok .publish ∧
    decodeStage 0b000 = .error .noEngineStage ∧ decodeStage 0b110 = .error .noEngineStage ∧
    decodeStage 0b111 = .error .noEngineStage := by decide

/-- The remaining rows of spec/opcode_table.json by their "match" words. -/
theorem test_decode_remaining_rows :
    decodeHt35 0x000000000 = .ok .rdCmd ∧ decodeHt35 0x000020000 = .ok .rdCount ∧ decodeHt35 0x000030000 = .ok .rdLength ∧
    decodeHt35 0x000040000 = .ok .rdErridx ∧ decodeHt35 0x000050000 = .ok .rdSspos ∧
    decodeHt35 0x000060000 = .ok .rdEndpos ∧ decodeHt35 0x400000012 = .ok .decodeT2 := by decide

/-- The refused words of V-HOST-4 to 7, 10, 11, 14 to 17. -/
theorem test_decode_refuses_by_name :
    decodeHt35 0x400000010 = .error .reservedTrack ∧ decodeHt35 0x400000021 = .error .reservedCommand ∧
    decodeHt35 0x400000111 = .error .reservedCommand ∧ decodeHt35 0x400000015 = .error .reservedCommand ∧
    decodeHt35 0x400010000 = .error .readOnlyRegister ∧ decodeHt35 0x000080000 = .error .reservedRegister ∧
    decodeHt35 0x500040002 = .error .badRawData ∧ decodeHt35 0x600000041 = .error .textWrite ∧
    decodeHt35 0x300000000 = .error .reservedSpace ∧ decodeHt35 0x000010001 = .error .readWithData := by decide

/-- The encoder on words of V-HOST and P1. -/
theorem test_encode_words :
    encode (.wrCount 43) = .ht35 0x40002002B ∧ encode (.wrRaw 14 true) = .ht35 0x5000E0001 ∧
    encode .decodeT2 = .ht35 0x400000012 ∧ encode (.rdText 3) = .ht35 0x200030000 ∧ encode .publish = .stage 0b101 := by
  decide

/-- The table's numbering: a STAGE row has 3 bits in one byte, an HT35 row 35 bits in five. -/
theorem test_decode_table_words :
    decodeTableWord 8 3 = some .decodeChars ∧ decodeTableWord 40 0x400000012 = some .decodeT2 ∧
    decodeTableWord 8 9 = none ∧ decodeTableWord 40 0x800000000 = none := by decide

/-! ## Range checks at CAP = 300 (V-HOST-8, 9, 12, 13, 26) -/

theorem test_wellFormed_refuses_a_count_above_the_capacity :
    (Instr.wrCount 301).wellFormed 300 = false ∧ (Instr.wrCount 300).wellFormed 300 = true := by decide

theorem test_wellFormed_refuses_a_raw_write_at_the_capacity :
    (Instr.wrRaw 300 true).wellFormed 300 = false ∧ (Instr.wrRaw 299 true).wellFormed 300 = true := by decide

theorem test_wellFormed_refuses_a_raw_read_at_the_capacity :
    (Instr.rdRaw 300).wellFormed 300 = false ∧ (Instr.rdRaw 299).wellFormed 300 = true := by decide

theorem test_wellFormed_refuses_a_text_read_at_the_output_capacity :
    (Instr.rdText 60).wellFormed 300 = false ∧ (Instr.rdText 59).wellFormed 300 = true := by decide

/-! ## Pure primitives (95_test_vectors.md section 2) -/

/-- The bits of a string of the vectors. -/
def bits (digits : List Nat) : List Bool := digits.map (· == 1)

/-- A bit list as a buffer. -/
def buf (b : List Bool) (i : Nat) : Bool := b.getD i false

/-- V-PRM-1, 2, 3. -/
theorem test_frame :
    frame (buf (bits [0, 0, 1, 0, 0])) 0 5 = 0x04 ∧ frame (buf (bits [1, 1, 0, 1, 0])) 0 5 = 0x0B ∧
    frame (buf (bits [1, 0, 1, 0, 0, 0, 1])) 0 7 = 0x45 := by decide

/-- V-PRM-4 to 8 and 9 to 11. -/
theorem test_parity :
    oddParity 0x0B 5 = true ∧ oddParity 0x0F 5 = false ∧ oddParity 0x1F 5 = true ∧ oddParity 0 7 = false ∧
    oddParity 0x7F 7 = true ∧ oddBit 0x5 = true ∧ oddBit 0x0 = true ∧ oddBit 0x4 = false := by decide

/-- V-REV-3, V-LOCF-2, 3, 5. -/
theorem test_reverse_and_locate :
    reverseBits (buf (bits [1, 1, 0])) 3 = bits [0, 1, 1] ∧ locate (buf (bits [1, 1, 0, 1])) 4 .fourBit = none ∧
    locate (buf (bits [1, 1, 0, 1, 0])) 5 .fourBit = some 0 ∧
    locate (buf (bits [0, 0, 1, 1, 0, 1, 0, 1, 1, 0, 1, 0, 1, 1, 1, 1, 1, 0, 0, 0, 0, 1])) 22 .fourBit = some 2 := by decide

/-! ## One step per instruction -/

/-- Right after reset, with the vectors' CAP = 300. -/
def idle : State := { State.reset with cap := 300 }

/-- A swipe captured, track 2 latched and the sequencer in a given state; WORK holds the swipe as captured. -/
def swipe (q : SeqState) (b : List Bool) : State :=
  { idle with
    seq := q
    trk := .t2
    count := BitVec.ofNat 16 b.length
    raw := Memory.writeFrom [] 0 b
    work := Memory.writeFrom [] 0 b }

/-- V-CHR-7: start sentinel, ';', '4', end sentinel, LRC 0x1F. -/
def twoChars : List Bool :=
  bits [1, 1, 0, 1, 0, 1, 1, 0, 1, 0, 0, 0, 1, 0, 0, 1, 1, 1, 1, 1, 1, 1, 1, 1, 1]

/-- V-CHR-7 after DETECT, NORMLOC and DECODE_CHARS. -/
def framed : State :=
  { swipe .charactersDecoded twoChars with
    dir := .forward
    endpos := 20
    ndata := 2
    acc := 0x0F
    text := [(0, 0x3B), (1, 0x34)] }

/-- V-CHR-7 at the end of its decode call. -/
def published : State :=
  { framed with
    seq := .done
    valid := true
    lrc := 0x1F9F
    length := 2 }

/-- V-CHR-2's result in FAILED. -/
def failedState : State :=
  { idle with
    seq := .failed
    trk := .t2
    reason := .parityError
    dir := .forward
    length := 0xFFFF
    erridx := 2
    sspos := 4 }

/-- A test on the next state; a fault or a refusal fails it. -/
def gives (r : Result) (p : State → Bool) : Bool :=
  match r with
  | .next t => p t
  | .fault _ => false
  | .refused _ => false

/-- V-HOST-1, 2, 27, 28 and the STATUS of V-CHR-7 (0x0A86) and V-CHR-2 (0x08A7). -/
theorem test_rd_registers :
    gives (exec .rdCmd published) (·.reads == [0]) = true ∧
    gives (exec .rdStatus idle) (·.reads == [0]) = true ∧
    gives (exec .rdStatus published) (·.reads == [0x0A86]) = true ∧
    gives (exec .rdStatus failedState) (·.reads == [0x08A7]) = true ∧
    gives (exec .rdLength failedState) (·.reads == [0xFFFF]) = true ∧
    gives (exec .rdErridx failedState) (·.reads == [2]) = true := by decide

/-- The other registers of V-CHR-7 and V-CHR-2. -/
theorem test_rd_result_registers :
    gives (exec .rdCount published) (·.reads == [25]) = true ∧
    gives (exec .rdLength published) (·.reads == [2]) = true ∧
    gives (exec .rdSspos failedState) (·.reads == [4]) = true ∧
    gives (exec .rdEndpos published) (·.reads == [20]) = true ∧
    gives (exec .rdLrc published) (·.reads == [0x1F9F]) = true := by decide

/-- V-HOST-22 and R237: a result read while BUSY takes one draw, STATUS takes three. -/
theorem test_rd_while_busy_draws :
    gives (exec .rdLength framed) (·.draws == 1) = true ∧ gives (exec .rdStatus framed) (·.draws == 3) = true := by decide

/-- V-HOST-3 and R190: the old result is cleared, COUNT stays. -/
theorem test_decode_is_accepted :
    gives (exec .decodeT2 idle) (fun t => t.seq == .accepted && t.trk == .t2 && t.busy) = true ∧
    gives (exec .decodeT1 published)
      (fun t => t.trk == .t1 && t.length == 0 && t.lrc == 0 && t.dir == .unknown && t.count == 25) = true ∧
    gives (exec .decodeT3 failedState) (fun t => t.trk == .t3 && t.reason == .noReason && t.erridx == 0) = true := by decide

/-- V-HOST-18, 19, 20: refused while BUSY. -/
theorem test_writes_while_busy_are_refused :
    exec (.wrCount 10) framed = .next framed.refuse ∧ exec (.wrRaw 0 true) framed = .next framed.refuse ∧
    exec .decodeT1 framed = .next framed.refuse := ⟨rfl, rfl, rfl⟩

/-- V-HOST-8, 9. -/
theorem test_wr_count :
    gives (exec (.wrCount 300) idle) (fun t => t.count == 300 && !t.refused) = true ∧
    gives (exec (.wrCount 301) idle) (fun t => t.count == 0 && t.refused) = true := by decide

/-- V-HOST-12, 13. -/
theorem test_wrraw :
    gives (exec (.wrRaw 299 true) idle) (fun t => t.raw == [(299, true)] && !t.refused) = true ∧
    gives (exec (.wrRaw 300 true) idle) (fun t => t.raw == [] && t.refused) = true := by decide

/-- V-HOST-21: RDRAW is defined while BUSY. R91 item 8: refused at CAP. -/
theorem test_rdraw :
    gives (exec (.rdRaw 4) (swipe .accepted (bits [0, 0, 0, 0, 1]))) (·.reads == [1]) = true ∧
    gives (exec (.rdRaw 300) idle) (·.refused) = true := by decide

/-- V-HOST-23, 26 on V-CHR-7's text. -/
theorem test_rdtext :
    gives (exec (.rdText 1) published) (·.reads == [0x34]) = true ∧
    gives (exec (.rdText 60) published) (·.refused) = true := by decide

/-- V-HOST-24, 25: a draw at n = LENGTH and in FAILED. -/
theorem test_rdtext_draws :
    gives (exec (.rdText 2) published) (·.draws == 1) = true ∧
    gives (exec (.rdText 0) failedState) (·.draws == 1) = true := by decide

/-- DETECT on V-LOC-4 reversed (found backward) and on V-DET-6 (NO_SENTINEL). -/
theorem test_detect :
    gives (exec .detect (swipe .accepted (bits [0, 1, 0, 1, 1, 0, 0, 0, 0, 0])))
      (fun t => t.dir == .backward && t.seq == .directionDetected && t.workBit 5) = true ∧
    gives (exec .detect (swipe .accepted (bits [1, 1, 0, 1])))
      (fun t => t.statusWord == 0x0817 && t.length == 0xFFFF && t.erridx == 0) = true := by decide

/-- DETECT on V-DET-7: a match both ways, FORWARD wins. -/
theorem test_detect_prefers_forward :
    gives (exec .detect (swipe .accepted (bits [1, 1, 0, 1, 0, 0, 1, 0, 1, 1]))) (·.dir == .forward) = true := by decide

/-- NORMLOC on V-LOC-4: the last window. -/
theorem test_normloc :
    gives (exec .normloc { swipe .directionDetected (bits [0, 0, 0, 0, 0, 1, 1, 0, 1, 0]) with dir := .forward })
      (fun t => t.sspos == 5 && t.seq == .sentinelFound) = true := by decide

/-- DECODE_CHARS on V-CHR-7. -/
theorem test_decode_chars :
    gives (exec .decodeChars (swipe .sentinelFound twoChars))
      (fun t => t.text == [(0, 0x3B), (1, 0x34)] && t.endpos == 20 && t.ndata == 2 && t.acc == 0x0F &&
        t.seq == .charactersDecoded) = true := by decide

/-- DECODE_CHARS on V-LOC-3 (PARITY_ERROR at 0) and on V-DET-7 (TRUNCATED at 2). -/
theorem test_decode_chars_failures :
    gives (exec .decodeChars (swipe .sentinelFound (bits [1, 1, 0, 1, 1, 1, 1, 1, 1, 1, 0, 0, 0, 0, 1])))
      (fun t => t.reason == .parityError && t.erridx == 0 && t.seq == .failed) = true ∧
    gives (exec .decodeChars (swipe .sentinelFound (bits [1, 1, 0, 1, 0, 0, 1, 0, 1, 1])))
      (fun t => t.reason == .truncated && t.erridx == 2 && t.length == 0xFFFF) = true := by decide

/-- LRC_CHECK on V-CHR-7, and on it cut after the end sentinel: no LRC frame. -/
theorem test_lrc_check :
    gives (exec .lrcCheck framed) (fun t => t.lrc == 0x1F9F && t.valid && t.seq == .checksumChecked) = true ∧
    gives (exec .lrcCheck { framed with count := 20 }) (fun t => t.lrc == 0x001F && !t.valid) = true := by decide

/-- PUBLISH on V-CHR-7 and on a mismatch. -/
theorem test_publish :
    gives (exec .publish { framed with valid := true }) (fun t => t.statusWord == 0x0A86 && t.length == 2) = true ∧
    gives (exec .publish framed) (fun t => t.statusWord == 0x08C6 && t.length == 2) = true := by decide

/-- A step runs EXT's next word and ENGINE's selected stage; a refused word sets the mark. -/
theorem test_step :
    gives (step { idle with program := [.xfer 0x400000012] }) (fun t => t.seq == .accepted && t.program == []) = true ∧
    gives (step (swipe .charactersDecoded [])) (·.seq == .checksumChecked) = true ∧
    gives (step { idle with program := [.xfer 0x300000000] }) (·.refused) = true := by decide

/-- A reset turn while BUSY. -/
theorem test_reset_turn :
    gives (step { framed with schedule := [.reset] }) (fun t => t.seq == .idle && t.statusWord == 0 && t.text == []) = true := by
  decide

/-- Names stand where R94 puts them, one label before the operation and one name after a read's operand, and nowhere else. -/
theorem test_assembler_names :
    assembleLine "L: RD COUNT -> n".toList = some [.xfer 0x000020000] ∧ assembleLine "L: # a label alone".toList = some [] ∧
    assembleLine "DECODE T2 -> x y".toList = none ∧ assembleLine "WR COUNT, 5 -> x".toList = none ∧
    assembleLine "-> x".toList = none ∧ assembleLine "RD LRC ->".toList = none ∧ assembleLine "RD LRC -> x y".toList = none ∧
    assembleLine ":: RD LRC".toList = none ∧ assembleLine ", : RD LRC".toList = none ∧
    assembleLine "a: b: RD LRC".toList = none := by decide

/-- The host's assembler on lines of P1, and on a line outside the syntax. -/
theorem test_assembler :
    assembleLine "DECODE T2            # 0x400000012".toList = some [.xfer 0x400000012] ∧
    assembleLine "start: WRRAW 14, 1".toList = some [.xfer 0x5000E0001] ∧
    assembleLine "RD LRC -> x".toList = some [.xfer 0x000070000] ∧
    assembleLine "LOADBITS \"01\"".toList = some [.xfer 0x500000000, .xfer 0x500010001, .xfer 0x400020002] ∧
    assembleLine "NOP".toList = none := by decide

/-! ## Witnesses: states and operands that meet the hypotheses of each obligation, clause by clause -/

/-- The V-CHR-7 swipe where DECODE_CHARS takes it up. -/
def located : State := { swipe .sentinelFound twoChars with dir := .forward }

/-- V-CHR-7 before its decode call, accepted. -/
def accepted : State := swipe .accepted twoChars

/-- EncodeOfDecodeIsTheWord: a host word and a stage code. -/
theorem test_witness_decodable :
    decode (.ht35 0x5012B0001) = .ok (.wrRaw 299 true) ∧ decode (.stage 5) = .ok .publish := by decide

/-- HostWordDecodesIffItFitsATableRow: a word of each kind. -/
theorem test_witness_table_row :
    (∃ r ∈ ht35Rows, r.fits (0x40002FFFF : Ht35).toNat = true) ∧
    ¬ ∃ r ∈ ht35Rows, r.fits (0x700000000 : Ht35).toNat = true := by decide

/-- RefusedEncodingsAreRejectedByName: the nine hypotheses, at the ends of their ranges. -/
theorem test_witness_refused_encodings :
    ht35Space 0x300000000 = 3 ∧
    (ht35Space 0x20000FFFF ≠ 3 ∧ ht35Rw 0x20000FFFF = 0 ∧ ht35Data 0x20000FFFF ≠ 0) ∧
    (ht35Space 0x000080000 = 0 ∧ ht35Rw 0x000080000 = 0 ∧ ht35Data 0x000080000 = 0 ∧ 8 ≤ (ht35Addr 0x000080000).toNat) ∧
    (ht35Space 0x4FFFF0000 = 0 ∧ ht35Rw 0x4FFFF0000 = 1 ∧ 8 ≤ (ht35Addr 0x4FFFF0000).toNat) ∧
    (ht35Space 0x400070000 = 0 ∧ ht35Rw 0x400070000 = 1 ∧ (ht35Addr 0x400070000).toNat < 8 ∧
      ht35Addr 0x400070000 ≠ 0 ∧ ht35Addr 0x400070000 ≠ 2) ∧
    (ht35Space 0x400000001 = 0 ∧ ht35Rw 0x400000001 = 1 ∧ ht35Addr 0x400000001 = 0 ∧
      (ht35Data 0x400000001).toNat / 16 % 16 ≠ 1) ∧
    (ht35Space 0x400000010 = 0 ∧ ht35Rw 0x400000010 = 1 ∧ ht35Addr 0x400000010 = 0 ∧ ht35Data 0x400000010 = 0x0010) ∧
    (ht35Space 0x500000002 = 1 ∧ ht35Rw 0x500000002 = 1 ∧ 2 ≤ (ht35Data 0x500000002).toNat) ∧
    (ht35Space 0x600000000 = 2 ∧ ht35Rw 0x600000000 = 1) := by decide

/-- OneFlipChangesParityTwoKeepIt and ReversalInvolutesAndReversesFrames: the widest frame's ends. -/
theorem test_witness_flip_positions : (7 : Nat) ≤ 7 ∧ 0 < 7 ∧ 6 < 7 ∧ (0 : Nat) ≠ 6 := by decide

/-- CharacterCodeOfEveryDataValue: the largest value of each format. -/
theorem test_witness_data_values :
    (63 : DataVal).toNat < 2 ^ Format.sixBit.dataBits ∧ (15 : DataVal).toNat < 2 ^ Format.fourBit.dataBits := by decide

/-- DetectTriesForwardThenBackward: a latched format, and each of the three ways. -/
theorem test_witness_detect :
    accepted.trk.format = some .fourBit ∧
    locate accepted.rawBit accepted.count.toNat .fourBit = some 0 ∧
    (let s := swipe .accepted (bits [0, 1, 0, 1, 1])
     locate s.rawBit s.count.toNat .fourBit = none ∧
     locate (fun i => s.rawBit (s.count.toNat - 1 - i)) s.count.toNat .fourBit = some 0) ∧
    (let s := swipe .accepted []
     locate s.rawBit s.count.toNat .fourBit = none ∧
     locate (fun i => s.rawBit (s.count.toNat - 1 - i)) s.count.toNat .fourBit = none) := by decide

/-- NormlocWritesTheLeftmostSentinelOffset: a match in the last whole window; NormlocFaultsOnlyWithoutASentinel: and none. -/
theorem test_witness_normloc :
    (let s := swipe .directionDetected (bits [0, 1, 1, 0, 1, 0])
     s.trk.format = some .fourBit ∧ 1 + 5 ≤ s.count.toNat ∧ dataField (frame s.rawBit 1 5) 4 = 0x0B) ∧
    exec .normloc (swipe .directionDetected (bits [1, 1, 0, 1])) = .fault .sentinelLost := ⟨by decide, rfl⟩

/-- NormlocAfterDetectFindsTheSameOffset. -/
theorem test_witness_detected : ∃ t, exec .detect accepted = .next t ∧ t.seq = .directionDetected := ⟨_, rfl, rfl⟩

/-- DecodeCharsReachesTheEndSentinel: V-CHR-7 with k = 2. -/
theorem test_witness_end_sentinel :
    located.trk.format = some .fourBit ∧ (∀ j, j ≤ 2 → located.charPassed .fourBit j) ∧ located.charFits .fourBit 3 ∧
    oddParity (located.charFrame .fourBit 3) 5 = true ∧ located.charValue .fourBit 3 = Format.es .fourBit := by
  unfold State.charPassed State.charFits
  decide

/-- The same with k = 0, the empty track of V-CHR-1. -/
theorem test_witness_empty_track :
    let s := swipe .sentinelFound (bits [1, 1, 0, 1, 0, 1, 1, 1, 1, 1])
    (∀ j, j ≤ 0 → s.charPassed .fourBit j) ∧ s.charFits .fourBit 1 ∧ s.charValue .fourBit 1 = Format.es .fourBit := by
  unfold State.charPassed State.charFits
  decide

/-- DecodeCharsFailsAtTheFirstEvenFrame: at index 0 (V-LOC-3) and at index 1. -/
theorem test_witness_even_frame :
    (let s := swipe .sentinelFound (bits [1, 1, 0, 1, 1])
     s.trk.format = some .fourBit ∧ (∀ i, i < 0 → s.charPassed .fourBit i) ∧ s.charFits .fourBit 0 ∧
     oddParity (s.charFrame .fourBit 0) 5 = false) ∧
    (let s := swipe .sentinelFound (bits [1, 1, 0, 1, 0, 0, 0, 0, 0, 0])
     (∀ i, i < 1 → s.charPassed .fourBit i) ∧ s.charFits .fourBit 1 ∧ oddParity (s.charFrame .fourBit 1) 5 = false) := by
  unfold State.charPassed State.charFits
  decide

/-- DecodeCharsFailsWhereBitsRunOut: one bit short of the frame at index 1 (V-LOC-4's shape), and no bit at index 0. -/
theorem test_witness_cut_frame :
    (let s := swipe .sentinelFound (bits [1, 1, 0, 1, 0, 0, 0, 1, 0])
     s.trk.format = some .fourBit ∧ (∀ i, i < 1 → s.charPassed .fourBit i) ∧ ¬ s.charFits .fourBit 1) ∧
    (let s := swipe .sentinelFound []
     (∀ i, i < 0 → s.charPassed .fourBit i) ∧ ¬ s.charFits .fourBit 0) := by
  unfold State.charPassed State.charFits
  decide

/-- LrcCheckComparesTheWholeCharacter: an LRC frame that just fits, and one that is one bit short. -/
theorem test_witness_lrc :
    framed.trk.format = some .fourBit ∧ framed.endpos.toNat + 5 ≤ framed.count.toNat ∧
    ¬ State.endpos { framed with count := 24 } + 5 ≤ State.count { framed with count := 24 } := by decide

/-- StagesFaultWithoutALatchedTrack: both sides. -/
theorem test_witness_no_track : idle.trk = .noTrack ∧ framed.trk ≠ .noTrack := by decide

/-- The statements on transactions with BUSY = 0 and with BUSY = 1. -/
theorem test_witness_busy : idle.busy = false ∧ published.busy = false ∧ failedState.busy = false ∧ framed.busy = true := by
  decide

/-- ResultReadsWhileBusyAreDraws, RDTEXT's clause: the last byte of TEXT. -/
theorem test_witness_text_in_range : framed.busy = true ∧ (59 : Reg).toNat < framed.outCap := by decide

/-- CountWriteStoresUpToCapacity, RawWriteStoresOneBit: the capacity and one above, the last bit and one above. -/
theorem test_witness_write_ranges :
    idle.busy = false ∧ (300 : Reg).toNat ≤ idle.cap ∧ idle.cap < (301 : Reg).toNat ∧ (299 : Reg).toNat < idle.cap ∧
    idle.cap ≤ (300 : Reg).toNat ∧ Memory.wf idle.raw = true := by decide

/-- RawReadReturnsTheBitOrItsDraw: a written bit, an unwritten one, an address at the capacity. -/
theorem test_witness_raw_reads :
    (24 : Reg).toNat < framed.cap ∧ Memory.read framed.raw 24 = some true ∧ (25 : Reg).toNat < framed.cap ∧
    Memory.read framed.raw 25 = none ∧ framed.cap ≤ (300 : Reg).toNat := by decide

/-- TextReadIsDefinedInDoneBelowLength: below LENGTH, at LENGTH, in FAILED with LENGTH = -1, at the output capacity. -/
theorem test_witness_text_reads :
    ((1 : Reg).toNat < published.cap / 5 ∧ published.seq = .done ∧ (((1 : Reg).toNat : Nat) : Int) < published.length.toInt) ∧
    ((2 : Reg).toNat < published.cap / 5 ∧ published.length.toInt ≤ (((2 : Reg).toNat : Nat) : Int)) ∧
    (failedState.seq ≠ .done ∧ failedState.length.toInt = -1) ∧ published.cap / 5 ≤ (60 : Reg).toNat := by decide

/-- ReadsHaveNoSideEffectsAndWritesRepeat, TransactionsCannotReachEngineRegisters: a read and a write that go on. -/
theorem test_witness_transactions :
    (readInstr .rdCount = true ∧ ∃ t, exec .rdCount idle = .next t) ∧
    (hostInstr (.wrCount 3) = true ∧ ∃ t, exec (.wrCount 3) idle = .next t) ∧
    (hostInstr .decodeT2 = true ∧ ∃ t, exec .decodeT2 idle = .next t) :=
  ⟨⟨by decide, _, rfl⟩, ⟨by decide, _, rfl⟩, by decide, _, rfl⟩

/-- RangeCheckedTransactionsAreRefused: operands in and out of range. -/
theorem test_witness_ranges :
    hostInstr (.rdText 59) = true ∧ (Instr.rdText 59).wellFormed idle.cap = true ∧ idle.busy = false ∧
    (Instr.rdText 60).wellFormed idle.cap = false := by decide

/-- ResetTurnClearsTheBlock. -/
theorem test_witness_reset_turn : State.schedule { framed with schedule := [.reset, .ext] } = .reset :: [.ext] := rfl

/-- StepRunsTheNextTransaction: a scheduled turn, the default turn, a word that decodes and one that does not. -/
theorem test_witness_next_transaction :
    (let s : State := { framed with
       program := [.xfer 0x400000012, .wait]
       schedule := [.ext, .engine] }
     s.program = .xfer 0x400000012 :: [.wait] ∧ s.schedule = .ext :: [.engine] ∧ decodeHt35 0x400000012 = .ok .decodeT2) ∧
    (let s : State := { idle with program := [.xfer 0x300000000] }
     s.schedule = [] ∧ s.busy = false ∧ decodeHt35 0x300000000 = .error .reservedSpace) := by decide

/-- StepRunsTheSelectedStage: the six clauses. -/
theorem test_witness_selected_stage :
    (∀ q, State.schedule { swipe q [] with schedule := [.engine] } = .engine :: []) ∧
    (swipe .accepted []).busy = true ∧ (swipe .directionDetected []).busy = true ∧ (swipe .sentinelFound []).busy = true ∧
    (swipe .charactersDecoded []).busy = true ∧ (swipe .checksumChecked []).busy = true ∧ (swipe .failed []).busy = false := by
  refine ⟨fun _ => rfl, ?_⟩
  decide

/-- WaitPollsUntilNotBusy: BUSY = 0 on a scheduled turn and on the default one (BUSY = 1: test_witness_polls). -/
theorem test_witness_wait_goes_on :
    (let s : State := { published with
       program := [.wait, .xfer 0x000030000]
       schedule := [.ext, .engine] }
     s.program = .wait :: [.xfer 0x000030000] ∧ s.schedule = .ext :: [.engine] ∧ s.busy = false) ∧
    (let s : State := { published with program := [.wait] }
     s.program = .wait :: [] ∧ s.schedule = [] ∧ s.busy = false) := by decide

/-- AppendAtTheCapacityIsRefused: COUNT = CAP = 300, and the largest capacity with COUNT = 65535. -/
theorem test_witness_append_at_capacity :
    (let s : State := { idle with
       program := [.append true]
       count := 300 }
     s.program = .append true :: [] ∧ s.schedule = [] ∧ s.busy = false ∧ s.cap ≤ s.count.toNat) ∧
    (let s : State := { idle with
       program := [.append true]
       cap := 65535
       count := 65535 }
     s.busy = false ∧ s.cap ≤ s.count.toNat ∧ s.count.toNat = 65535) := by decide

/-- StageWorkIsBounded: states of V-CHR-7's decode call share COUNT, within the capacity. -/
theorem test_witness_shared_count :
    located.count = accepted.count ∧ framed.count = accepted.count ∧ accepted.count.toNat ≤ accepted.cap := by decide

/-- R239 on V-CHR-7's swipe: one window until the match at 0, 25 bits copied, frames at indices 0 to 3, one LRC frame. -/
theorem test_work_counts :
    accepted.detectCompares .fourBit = 1 ∧ accepted.detectCopies .fourBit = 25 ∧ located.normlocCopies = 25 ∧
    located.framesExamined .fourBit = 4 ∧ framed.lrcFrames .fourBit = 1 := by decide

/-- WaitPollsUntilNotBusy and AppendWritesTheNextBit. -/
theorem test_witness_polls :
    (let s : State := { framed with
       program := [.wait]
       schedule := [.ext] }
     s.program = .wait :: [] ∧ s.schedule = .ext :: [] ∧ s.busy = true) ∧
    (let s : State := { published with program := [.append true] }
     s.program = .append true :: [] ∧ s.schedule = [] ∧ s.busy = false ∧ s.count.toNat < s.cap ∧ s.cap ≤ 65535) := by decide

/-- LoadbitsLoadsTheSwipe: V-CHR-7's swipe, followed by DECODE T2. -/
theorem test_witness_loadbits :
    ∃ ops, assemble (.loadbits twoChars) = some ops ∧
      let s : State := { idle with program := ops ++ [.xfer 0x400000012] }
      s.program = ops ++ [.xfer 0x400000012] ∧ s.schedule = [] ∧ s.busy = false ∧ twoChars.length ≤ s.cap ∧ s.cap ≤ 65535 :=
  ⟨_, rfl, rfl, rfl, rfl, by decide, by decide⟩

/-- EveryStepKeepsTheInvariant, InvariantStatesNeverStop: the end of V-CHR-7's decode call, with a DECODE to issue. -/
theorem test_witness_invariant :
    let s : State := { published with program := [.xfer 0x400000012] }
    s.Inv ∧ ∃ t, step s = .next t := by
  refine ⟨⟨?_, ?_, ?_, ?_⟩, _, rfl⟩
  · unfold State.paramInv
    decide
  · unfold State.bufferInv
    decide
  · refine ⟨rfl, rfl, rfl, by decide, .fourBit, rfl, by decide, by decide, ?_⟩
    decide
  · intro _
    decide

/-- The invariant in a busy state: V-CHR-7 before its decode call. -/
theorem test_witness_invariant_while_busy : accepted.Inv := by
  refine ⟨?_, ?_, ⟨by decide, rfl, rfl, rfl, ⟨rfl, rfl, rfl⟩, rfl, rfl, rfl, rfl⟩, ?_⟩
  · unfold State.paramInv
    decide
  · unfold State.bufferInv
    decide
  · intro _
    decide

/-- SequencerTransitionsAreComplete: each kind of turn has a step. -/
theorem test_witness_turns :
    (idle.nextTurn = none ∧ ∃ t, step idle = .next t) ∧
    (State.nextTurn { framed with schedule := [.reset] } = some .reset) ∧
    (State.nextTurn { idle with program := [.wait] } = some .ext) ∧
    (framed.nextTurn = some .engine ∧ ∃ t, step framed = .next t) := ⟨⟨rfl, _, rfl⟩, rfl, rfl, rfl, _, rfl⟩

/-- DecodeCallEndsInOneThreeOrFiveSteps, EngineRefinesTheSourceDecode: an accepted call. -/
theorem test_witness_accepted_call :
    accepted.seq = .accepted ∧ accepted.trk ≠ .noTrack ∧ accepted.schedule = [] ∧ accepted.trk.format = some .fourBit := by
  decide

/-- CleanTrackDecodesToItsText: "4111", and values next to the end sentinel's. -/
theorem test_witness_clean_values :
    (∀ v ∈ [4, 1, 1, 1, 14, 0], v < 2 ^ Format.fourBit.dataBits ∧ v ≠ Format.fourBit.es.toNat) ∧
    (∀ v ∈ [0x21, 0x11, 63, 30, 32], v < 2 ^ Format.sixBit.dataBits ∧ v ≠ Format.sixBit.es.toNat) := by decide

/-- ReversedSwipeDecodesTheSameBackward: V-LOC-4. -/
theorem test_witness_reversed_swipe :
    let b := bits [0, 0, 0, 0, 0, 1, 1, 0, 1, 0]
    sourceLocate .fourBit b ≠ none ∧ sourceLocate .fourBit b.reverse = none := by decide

/-- AnySingleFlipIsAParityErrorAtItsIndex, AnyCutBeforeTheEndSentinelIsTruncated: V-CHR-7, at the ends of the ranges. -/
theorem test_witness_flips_and_cuts :
    located.trk.format = some .fourBit ∧
    ∃ t, exec .decodeChars located = .next t ∧ t.seq = .charactersDecoded ∧ 3 ≤ t.ndata.toNat + 1 ∧
      located.sspos.toNat + 5 ≤ (5 : Reg).toNat ∧ (19 : Reg).toNat < t.endpos.toNat :=
  ⟨rfl, _, rfl, rfl, by decide, by decide, by decide⟩

/-- EngineWritesOnlyItsOwnState, TrackThreeDecodesLikeTrackTwo, SecondDecodeGivesTheSameResult: runs of the ENGINE. -/
theorem test_witness_engine_runs :
    (∃ t, engineRun 1 accepted = .next t) ∧ (∃ t, engineRun 1 { accepted with trk := .t2 } = .next t) ∧
    TrackCode.t2 ≠ .noTrack ∧ ∃ t, engineRun 5 (State.accept .t2 (swipe .failed [])) = .next t :=
  ⟨⟨_, rfl⟩, ⟨_, rfl⟩, by decide, _, rfl⟩

/-- EngineIgnoresRawAboveCount, EngineIgnoresWorkAboveCount: a buffer that differs above COUNT only. -/
theorem test_witness_above_count :
    let s := swipe .accepted (bits [1, 1, 0, 1, 0])
    hostInstr .detect = false ∧
    (∀ j, j < s.count.toNat → State.rawBit { s with raw := Memory.write s.raw 9 true } j = s.rawBit j) ∧
    (∀ j, j < s.count.toNat → State.workBit { s with work := Memory.write s.work 9 true } j = s.workBit j) ∧
    ∃ t, exec .detect s = .next t := ⟨by decide, by decide, by decide, _, rfl⟩

/-- RefusalMarkIsSetAloneAndNeverCleared: a step that sets the mark, and one after it. -/
theorem test_witness_mark :
    let s : State := { idle with program := [.xfer 0x300000000, .xfer 0x000010000] }
    ∃ t u, step s = .next t ∧ s.refused = false ∧ t.refused = true ∧ step t = .next u := ⟨_, _, rfl, rfl, rfl, rfl⟩

/-- ResultsStayUntilAcceptanceOrReset: a read in DONE. -/
theorem test_witness_result_stays :
    let s : State := { published with program := [.xfer 0x000010000] }
    ∃ t, step s = .next t ∧ s.busy = false ∧ t.busy = false ∧ s.nextTurn ≠ some .reset := ⟨_, rfl, rfl, rfl, by decide⟩

end Sys2Proof.Tests
end

/-! PROOFS. The places of STATUS's fields and BUSY as a function of STATE (10_state.md R25, R27). -/

namespace Sys2Proof.Machine

/-! ## The layout of STATUS -/

section StatusLayout
variable (trk : BitVec 2) (valid : BitVec 1) (dir : BitVec 2) (reason : BitVec 3) (busy : Bool) (state : BitVec 3)

/-- STATUS as a number: each field at its place value (R25). -/
theorem toNat_statusLayout :
    (statusLayout trk valid dir reason busy state).toNat =
      trk.toNat * 2 ^ 10 + valid.toNat * 2 ^ 9 + dir.toNat * 2 ^ 7 + reason.toNat * 2 ^ 4 + busy.toNat * 2 ^ 3 +
        state.toNat := by
  have hbusy := (BitVec.ofBool busy).isLt
  show (0#4 ++ trk ++ valid ++ dir ++ reason ++ BitVec.ofBool busy ++ state : BitVec (4 + 2 + 1 + 2 + 3 + 1 + 3)).toNat = _
  simp only [BitVec.toNat_append, ← Nat.shiftLeft_add_eq_or_of_lt state.isLt, ← Nat.shiftLeft_add_eq_or_of_lt hbusy,
    ← Nat.shiftLeft_add_eq_or_of_lt reason.isLt, ← Nat.shiftLeft_add_eq_or_of_lt dir.isLt,
    ← Nat.shiftLeft_add_eq_or_of_lt valid.isLt, ← Nat.shiftLeft_add_eq_or_of_lt trk.isLt]
  simp only [Nat.shiftLeft_eq, BitVec.toNat_ofBool, BitVec.toNat_ofNat]
  omega

@[simp] theorem statusLayout_state : (statusLayout trk valid dir reason busy state).extractLsb' 0 3 = state := by
  apply BitVec.eq_of_toNat_eq
  have hstate := state.isLt
  rw [BitVec.extractLsb'_toNat, toNat_statusLayout, Nat.shiftRight_eq_div_pow]
  omega

@[simp] theorem statusLayout_busy : (statusLayout trk valid dir reason busy state).getLsbD 3 = busy := by
  have hstate := state.isLt
  rw [BitVec.getLsbD, toNat_statusLayout, Nat.testBit_eq_decide_div_mod_eq]
  cases busy <;> simp only [Bool.toNat_true, Bool.toNat_false, decide_eq_true_eq, decide_eq_false_iff_not] <;> omega

@[simp] theorem statusLayout_reason : (statusLayout trk valid dir reason busy state).extractLsb' 4 3 = reason := by
  apply BitVec.eq_of_toNat_eq
  have hstate := state.isLt; have hbusy := busy.toNat_lt; have hreason := reason.isLt
  rw [BitVec.extractLsb'_toNat, toNat_statusLayout, Nat.shiftRight_eq_div_pow]
  omega

@[simp] theorem statusLayout_dir : (statusLayout trk valid dir reason busy state).extractLsb' 7 2 = dir := by
  apply BitVec.eq_of_toNat_eq
  have hstate := state.isLt; have hbusy := busy.toNat_lt; have hreason := reason.isLt; have hdir := dir.isLt
  rw [BitVec.extractLsb'_toNat, toNat_statusLayout, Nat.shiftRight_eq_div_pow]
  omega

@[simp] theorem statusLayout_valid (valid : Bool) :
    (statusLayout trk (BitVec.ofBool valid) dir reason busy state).getLsbD 9 = valid := by
  have hstate := state.isLt; have hbusy := busy.toNat_lt; have hreason := reason.isLt; have hdir := dir.isLt
  rw [BitVec.getLsbD, toNat_statusLayout, Nat.testBit_eq_decide_div_mod_eq, BitVec.toNat_ofBool]
  cases valid <;> simp only [Bool.toNat_true, Bool.toNat_false, decide_eq_true_eq, decide_eq_false_iff_not] <;> omega

@[simp] theorem statusLayout_trk : (statusLayout trk valid dir reason busy state).extractLsb' 10 2 = trk := by
  apply BitVec.eq_of_toNat_eq
  have hstate := state.isLt; have hbusy := busy.toNat_lt; have hreason := reason.isLt; have hdir := dir.isLt
  have hvalid := valid.isLt; have htrk := trk.isLt
  rw [BitVec.extractLsb'_toNat, toNat_statusLayout, Nat.shiftRight_eq_div_pow]
  omega

@[simp] theorem statusLayout_reserved : (statusLayout trk valid dir reason busy state).extractLsb' 12 4 = 0 := by
  apply BitVec.eq_of_toNat_eq
  have hstate := state.isLt; have hbusy := busy.toNat_lt; have hreason := reason.isLt; have hdir := dir.isLt
  have hvalid := valid.isLt; have htrk := trk.isLt
  rw [BitVec.extractLsb'_toNat, toNat_statusLayout, Nat.shiftRight_eq_div_pow]
  show _ = 0
  omega

end StatusLayout

/-! ## BUSY as a function of STATE (R27) -/

theorem SeqState.busy_eq_false_iff (q : SeqState) : q.busy = false ↔ q = .idle ∨ q = .done ∨ q = .failed := by
  cases q <;> decide

theorem SeqState.busy_iff_code (q : SeqState) : q.busy = true ↔ q.code.toNat ∈ [1, 2, 3, 4, 5] := by
  cases q <;> decide

/-- Settles O33: the fields by the laws of the layout, BUSY by the eight sequencer states. -/
theorem statusFieldsStandInTheirPlaces : Obligations.StatusFieldsStandInTheirPlaces :=
  ⟨rfl, fun s => ⟨s.seq.busy_eq_false_iff, statusLayout_state .., statusLayout_busy .., statusLayout_reason ..,
    statusLayout_dir .., statusLayout_valid .., statusLayout_trk .., statusLayout_reserved .., s.seq.busy_iff_code⟩⟩

end Sys2Proof.Machine

/-! PROOFS. The invariant at State.reset (10_state.md R44). -/

namespace Sys2Proof

/-- The capacity of State.reset lies in the spec's range (00_scope.md R6). -/
theorem Config.one_le_cap : 1 ≤ Config.cap := Nat.succ_pos _
theorem Config.cap_le : Config.cap ≤ 65535 := Config.capMinusOne.isLt

end Sys2Proof

namespace Sys2Proof.Machine

theorem State.reset_paramInv : State.reset.paramInv :=
  ⟨Config.one_le_cap, Config.cap_le, Nat.zero_le _⟩

theorem State.reset_bufferInv : State.reset.bufferInv :=
  ⟨Memory.wf_nil, Memory.wf_nil, Memory.wf_nil, Memory.below_nil _, Memory.below_nil _, Memory.below_nil _⟩

/-- Reset is IDLE with every result register clear. -/
theorem State.reset_resultInv : State.reset.resultInv :=
  ⟨rfl, rfl, rfl, rfl, ⟨rfl, rfl, rfl⟩, rfl, rfl, rfl, rfl⟩

theorem State.reset_accInv : State.reset.accInv := fun _ => by decide

/-- Settles O43: each of the invariant's four parts holds of State.reset. -/
theorem resetMeetsTheInvariant : Obligations.ResetMeetsTheInvariant :=
  ⟨State.reset_paramInv, State.reset_bufferInv, State.reset_resultInv, State.reset_accInv⟩

end Sys2Proof.Machine

/-! PROOFS. The fault noFormat and the latched track (10_state.md R31, log 9). -/

namespace Sys2Proof.Machine

/-- A stage faults with noFormat exactly at TRK = 0, when what it runs under a format never answers that fault. -/
theorem State.withFormat_eq_noFormat_iff {s : State} {k : Format → Result}
    (hk : ∀ f, s.trk.format = some f → s.withFormat k ≠ .fault .noFormat) :
    s.withFormat k = .fault .noFormat ↔ s.trk = .noTrack := by
  rw [← TrackCode.format_eq_none]
  constructor
  · intro h
    cases hf : s.trk.format with
    | none => rfl
    | some f => exact absurd h (hk f hf)
  · intro h
    exact State.withFormat_none h k

theorem execDetect_eq_noFormat_iff (s : State) : execDetect s = .fault .noFormat ↔ s.trk = .noTrack := by
  refine State.withFormat_eq_noFormat_iff fun f hf => ?_
  change execDetect s ≠ _
  rcases execDetect_cases hf with ⟨p, _, h⟩ | ⟨_, p, _, h⟩ | ⟨_, _, h⟩ <;> simp [h]

theorem execNormloc_eq_noFormat_iff (s : State) : execNormloc s = .fault .noFormat ↔ s.trk = .noTrack := by
  refine State.withFormat_eq_noFormat_iff fun f hf => ?_
  change execNormloc s ≠ _
  rcases execNormloc_cases hf with ⟨p, _, h⟩ | ⟨_, h⟩ <;> simp [h]

theorem execDecodeChars_eq_noFormat_iff (s : State) : execDecodeChars s = .fault .noFormat ↔ s.trk = .noTrack := by
  refine State.withFormat_eq_noFormat_iff fun f hf => ?_
  change execDecodeChars s ≠ _
  rcases execDecodeChars_cases hf with ⟨r, _, h⟩ | ⟨why, r, _, h⟩ <;> simp [h]

theorem execLrcCheck_eq_noFormat_iff (s : State) : execLrcCheck s = .fault .noFormat ↔ s.trk = .noTrack := by
  refine State.withFormat_eq_noFormat_iff fun f hf => ?_
  change execLrcCheck s ≠ _
  simp [execLrcCheck_eq hf]

/-- Settles O21: one lemma per stage. -/
theorem stagesFaultWithoutALatchedTrack : Obligations.StagesFaultWithoutALatchedTrack := by
  rintro s i (rfl | rfl | rfl | rfl)
  · exact execDetect_eq_noFormat_iff s
  · exact execNormloc_eq_noFormat_iff s
  · exact execDecodeChars_eq_noFormat_iff s
  · exact execLrcCheck_eq_noFormat_iff s

end Sys2Proof.Machine

/-! PROOFS. No host transaction reaches WORK, ACC or NDATA (10_state.md R40, R42, R43). Each transaction's outcome is followed
through a replacement of the three: it is the same state with the same replacement, or the accepted state that clears ACC and
NDATA. -/

namespace Sys2Proof.Machine

/-- The state with another WORK, ACC and NDATA. -/
def State.withEngine (w : List (Nat × Bool)) (a : DataVal) (m : Reg) (s : State) : State :=
  { s with work := w, acc := a, ndata := m }

/-! ## The replacement passes through what a transaction reads and does -/

section WithEngine
variable (w : List (Nat × Bool)) (a : DataVal) (m : Reg) (s : State)

theorem State.withEngine_self : s.withEngine s.work s.acc s.ndata = s := rfl
@[simp] theorem State.withEngine_busy : (s.withEngine w a m).busy = s.busy := rfl
@[simp] theorem State.withEngine_cap : (s.withEngine w a m).cap = s.cap := rfl
@[simp] theorem State.withEngine_draws : (s.withEngine w a m).draws = s.draws := rfl
@[simp] theorem State.withEngine_outCap : (s.withEngine w a m).outCap = s.outCap := rfl
@[simp] theorem State.withEngine_textReadable (n : Nat) :
    (s.withEngine w a m).textReadable n = s.textReadable n := rfl
@[simp] theorem State.withEngine_textByte : (s.withEngine w a m).textByte = s.textByte := State.textByte_eq rfl rfl
@[simp] theorem State.withEngine_statusWord : (s.withEngine w a m).statusWord = s.statusWord := rfl
@[simp] theorem State.withEngine_statusWhileBusy (k : Nat) :
    (s.withEngine w a m).statusWhileBusy k = s.statusWhileBusy k := rfl
@[simp] theorem State.withEngine_rawBit : (s.withEngine w a m).rawBit = s.rawBit := State.rawBit_eq rfl rfl
@[simp] theorem State.withEngine_refuse : (s.withEngine w a m).refuse = s.refuse.withEngine w a m := rfl
@[simp] theorem State.withEngine_useDraws (n : Nat) :
    (s.withEngine w a m).useDraws n = (s.useDraws n).withEngine w a m := rfl
@[simp] theorem State.withEngine_returnRead (v : Reg) :
    (s.withEngine w a m).returnRead v = (s.returnRead v).withEngine w a m := rfl
/-- Acceptance clears ACC and NDATA, whatever they held (47_host_commands.md R190). -/
@[simp] theorem State.withEngine_accept (t : TrackCode) :
    (s.withEngine w a m).accept t = (s.accept t).withEngine w 0 0 := rfl

end WithEngine

/-! ## What each transaction does under the replacement -/

/-- At `s` the operation answers a next state that neither depends on WORK, ACC and NDATA nor changes them. -/
def KeepsEngine (op : State → Result) (s : State) : Prop :=
  ∃ t : State, ∀ w a m, op (s.withEngine w a m) = .next (t.withEngine w a m)

/-- At `s` the operation ends in ACCEPTED: WORK as it was, ACC and NDATA 0, all else independent of the three. -/
def ClearsEngine (op : State → Result) (s : State) : Prop :=
  ∃ t : State, t.seq = .accepted ∧ ∀ w a m, op (s.withEngine w a m) = .next (t.withEngine w 0 0)

section Transactions
variable (s : State)

theorem readResult_keepsEngine (v : Reg) : KeepsEngine (State.readResult v) s := by
  cases h : s.busy
  · exact ⟨s.returnRead v, fun w a m => by simp [State.readResult, h]⟩
  · exact ⟨(s.useDraws 1).returnRead (freeBits 16 s.draws), fun w a m => by simp [State.readResult, h]⟩

theorem execRdStatus_keepsEngine : KeepsEngine execRdStatus s := by
  cases h : s.busy
  · exact ⟨s.returnRead s.statusWord, fun w a m => by simp [execRdStatus, h]⟩
  · exact ⟨(s.useDraws 3).returnRead (s.statusWhileBusy s.draws), fun w a m => by simp [execRdStatus, h]⟩

theorem execWrCount_keepsEngine (n : Reg) : KeepsEngine (execWrCount n) s := by
  by_cases h : s.busy = true ∨ s.cap < n.toNat
  · refine ⟨s.refuse, fun w a m => ?_⟩
    rcases h with h | h <;> simp [execWrCount, h]
  · obtain ⟨hbusy, hcap⟩ := not_or.1 h
    exact ⟨{ s with count := n }, fun w a m => (if_neg hbusy).trans (if_neg hcap)⟩

theorem execWrRaw_keepsEngine (i : Reg) (b : Bool) : KeepsEngine (execWrRaw i b) s := by
  by_cases h : s.busy = true ∨ s.cap ≤ i.toNat
  · refine ⟨s.refuse, fun w a m => ?_⟩
    rcases h with h | h <;> simp [execWrRaw, h]
  · obtain ⟨hbusy, hcap⟩ := not_or.1 h
    exact ⟨{ s with raw := Memory.write s.raw i.toNat b }, fun w a m => (if_neg hbusy).trans (if_neg hcap)⟩

theorem execRdRaw_keepsEngine (i : Reg) : KeepsEngine (execRdRaw i) s := by
  by_cases h : s.cap ≤ i.toNat
  · exact ⟨s.refuse, fun w a m => by simp [execRdRaw, h]⟩
  · exact ⟨s.returnRead ((BitVec.ofBool (s.rawBit i.toNat)).setWidth 16), fun w a m => by simp [execRdRaw, h]⟩

theorem State.readText_withEngine (n : Nat) (w : List (Nat × Bool)) (a : DataVal) (m : Reg) :
    (s.withEngine w a m).readText n = (s.readText n).withEngine w a m := by
  by_cases hcap : s.outCap ≤ n
  · simp [State.readText, hcap]
  · by_cases hread : s.textReadable n = true
    · simp [State.readText, hcap, hread]
    · simp [State.readText, hcap, hread]

theorem execRdText_keepsEngine (n : Reg) : KeepsEngine (execRdText n) s :=
  ⟨s.readText n.toNat, fun w a m => congrArg _ (s.readText_withEngine n.toNat w a m)⟩

/-- A DECODE is refused or accepted. -/
theorem startDecode_keeps_or_clearsEngine (k : TrackCode) :
    KeepsEngine (State.startDecode k) s ∨ ClearsEngine (State.startDecode k) s := by
  cases h : s.busy
  · exact .inr ⟨s.accept k, rfl, fun w a m => by simp [State.startDecode, h]⟩
  · exact .inl ⟨s.refuse, fun w a m => by simp [State.startDecode, h]⟩

/-- Every host transaction keeps WORK, ACC and NDATA out of its outcome, or is the acceptance that clears ACC and NDATA. -/
theorem exec_keeps_or_clearsEngine {i : Instr} (hi : hostInstr i = true) :
    KeepsEngine (exec i) s ∨ ClearsEngine (exec i) s := by
  cases i with
  | rdCmd => exact .inl ⟨s.returnRead 0, fun _ _ _ => rfl⟩
  | rdStatus => exact .inl (execRdStatus_keepsEngine s)
  | rdCount => exact .inl ⟨s.returnRead s.count, fun _ _ _ => rfl⟩
  | rdLength => exact .inl (readResult_keepsEngine s s.length)
  | rdErridx => exact .inl (readResult_keepsEngine s s.erridx)
  | rdSspos => exact .inl (readResult_keepsEngine s s.sspos)
  | rdEndpos => exact .inl (readResult_keepsEngine s s.endpos)
  | rdLrc => exact .inl (readResult_keepsEngine s s.lrc)
  | decodeT1 => exact startDecode_keeps_or_clearsEngine s .t1
  | decodeT2 => exact startDecode_keeps_or_clearsEngine s .t2
  | decodeT3 => exact startDecode_keeps_or_clearsEngine s .t3
  | wrCount n => exact .inl (execWrCount_keepsEngine s n)
  | wrRaw a b => exact .inl (execWrRaw_keepsEngine s a b)
  | rdRaw a => exact .inl (execRdRaw_keepsEngine s a)
  | rdText n => exact .inl (execRdText_keepsEngine s n)
  | detect | normloc | decodeChars | lrcCheck | publish => exact absurd hi (by decide)

end Transactions

/-- Settles O31: the given outcome is the one under the replacement by the state's own WORK, ACC and NDATA. -/
theorem transactionsCannotReachEngineRegisters : Obligations.TransactionsCannotReachEngineRegisters := by
  intro s t i w a m hi ht
  rw [← State.withEngine_self s] at ht
  rcases exec_keeps_or_clearsEngine s hi with ⟨u, hu⟩ | ⟨u, hseq, hu⟩
  · rw [hu] at ht
    cases ht
    exact ⟨rfl, u.withEngine w a m, hu w a m, rfl, .inl ⟨rfl, rfl, rfl, rfl⟩⟩
  · rw [hu] at ht
    cases ht
    exact ⟨rfl, u.withEngine w 0 0, hu w a m, rfl, .inr ⟨rfl, rfl, rfl, rfl, hseq⟩⟩

end Sys2Proof.Machine

/-! PROOFS. Reads have no side effects and a repeated write changes nothing (20_memory.md R70). -/

namespace Sys2Proof.Machine

/-! ## Reads -/

/-- What a read may come to: it is refused, or it returns one value and may use draws. -/
def ReadOutcome (s : State) (r : Result) : Prop :=
  r = .next s.refuse ∨ ∃ v n, r = .next ((s.useDraws n).returnRead v)

/-- A read that takes no draw. -/
theorem ReadOutcome.returns (s : State) (v : Reg) : ReadOutcome s (.next (s.returnRead v)) := .inr ⟨v, 0, rfl⟩

/-- A read that takes n draws. -/
theorem ReadOutcome.draws (s : State) (n : Nat) (v : Reg) :
    ReadOutcome s (.next ((s.useDraws n).returnRead v)) := .inr ⟨v, n, rfl⟩

section Reads
variable (s : State)

theorem readResult_readOutcome (v : Reg) : ReadOutcome s (s.readResult v) := by
  rcases State.readResult_eq v s with ⟨_, h⟩ | ⟨_, h⟩
  · rw [h]; exact .returns s v
  · rw [h]; exact .draws s 1 _

theorem execRdStatus_readOutcome : ReadOutcome s (execRdStatus s) := by
  unfold execRdStatus
  split
  · exact .draws s 3 _
  · exact .returns s _

theorem execRdRaw_readOutcome (i : Reg) : ReadOutcome s (execRdRaw i s) := by
  unfold execRdRaw
  split
  · exact .inl rfl
  · exact .returns s _

theorem execRdText_readOutcome (n : Reg) : ReadOutcome s (execRdText n s) := by
  unfold execRdText State.readText
  split
  · exact .inl rfl
  · split
    · exact .returns s _
    · exact .draws s 1 _

/-- Every read of every space, in every state. -/
theorem exec_readOutcome {i : Instr} (hi : readInstr i = true) : ReadOutcome s (exec i s) := by
  cases i with
  | rdCmd => exact .returns s 0
  | rdStatus => exact execRdStatus_readOutcome s
  | rdCount => exact .returns s s.count
  | rdLength => exact readResult_readOutcome s s.length
  | rdErridx => exact readResult_readOutcome s s.erridx
  | rdSspos => exact readResult_readOutcome s s.sspos
  | rdEndpos => exact readResult_readOutcome s s.endpos
  | rdLrc => exact readResult_readOutcome s s.lrc
  | rdRaw a => exact execRdRaw_readOutcome s a
  | rdText n => exact execRdText_readOutcome s n
  | wrCount | wrRaw => simp [readInstr, encode] at hi
  | decodeT1 | decodeT2 | decodeT3 | detect | normloc | decodeChars | lrcCheck | publish => exact absurd hi (by decide)

end Reads

/-! ## The writes of COUNT and RAW -/

/-- Writing a cell again with the same value leaves the buffer as it is. -/
@[simp] theorem Memory.write_write_same {α : Type} (m : List (Nat × α)) (a : Nat) (v : α) :
    Memory.write (Memory.write m a v) a v = Memory.write m a v := by
  induction m with
  | nil => simp [Memory.write]
  | cons c m ih =>
    rcases lt_trichotomy a c.1 with h | h | h
    · simp [Memory.write, h]
    · simp [Memory.write, h]
    · simp [Memory.write, show ¬ a < c.1 by omega, show a ≠ c.1 by omega, ih]

section Writes
variable {s t : State}

theorem execWrCount_refused {n : Reg} (h : s.busy = true ∨ s.cap < n.toNat) : execWrCount n s = .next s.refuse := by
  rcases h with h | h <;> simp [execWrCount, h]

theorem execWrCount_stored {n : Reg} (h : ¬ (s.busy = true ∨ s.cap < n.toNat)) :
    execWrCount n s = .next { s with count := n } := by
  obtain ⟨hbusy, hcap⟩ := not_or.1 h
  exact (if_neg hbusy).trans (if_neg hcap)

theorem execWrRaw_refused {i : Reg} (b : Bool) (h : s.busy = true ∨ s.cap ≤ i.toNat) :
    execWrRaw i b s = .next s.refuse := by
  rcases h with h | h <;> simp [execWrRaw, h]

theorem execWrRaw_stored {i : Reg} (b : Bool) (h : ¬ (s.busy = true ∨ s.cap ≤ i.toNat)) :
    execWrRaw i b s = .next { s with raw := Memory.write s.raw i.toNat b } := by
  obtain ⟨hbusy, hcap⟩ := not_or.1 h
  exact (if_neg hbusy).trans (if_neg hcap)

/-- A write of COUNT leaves BUSY and CAP alone, so its repetition takes the same branch and stores the same value. -/
theorem execWrCount_repeats {n : Reg} (ht : execWrCount n s = .next t) : execWrCount n t = .next t := by
  by_cases h : s.busy = true ∨ s.cap < n.toNat
  · rw [execWrCount_refused h] at ht
    cases ht
    exact execWrCount_refused (s := s.refuse) h
  · rw [execWrCount_stored h] at ht
    cases ht
    exact execWrCount_stored (s := { s with count := n }) h

/-- A write of RAW leaves BUSY and CAP alone, and the cell it writes again holds the value. -/
theorem execWrRaw_repeats {i : Reg} {b : Bool} (ht : execWrRaw i b s = .next t) : execWrRaw i b t = .next t := by
  by_cases h : s.busy = true ∨ s.cap ≤ i.toNat
  · rw [execWrRaw_refused b h] at ht
    cases ht
    exact execWrRaw_refused (s := s.refuse) b h
  · rw [execWrRaw_stored b h] at ht
    cases ht
    rw [execWrRaw_stored b (s := { s with raw := Memory.write s.raw i.toNat b }) h, Memory.write_write_same]

end Writes

/-- Settles O30: the outcomes of a read, and the repetition of each of the two writes. -/
theorem readsHaveNoSideEffectsAndWritesRepeat : Obligations.ReadsHaveNoSideEffectsAndWritesRepeat := by
  refine ⟨fun s t i hi ht => ?_, ?_⟩
  · rcases exec_readOutcome s hi with h | ⟨v, n, h⟩
    · rw [h] at ht
      cases ht
      exact .inr rfl
    · rw [h] at ht
      cases ht
      exact .inl ⟨v, rfl⟩
  · rintro s t i (⟨n, rfl⟩ | ⟨a, b, rfl⟩) ht
    · exact execWrCount_repeats ht
    · exact execWrRaw_repeats ht

end Sys2Proof.Machine

/-! PROOFS. The ENGINE reads RAW below COUNT alone (20_memory.md R62, 10_state.md R39). Each stage is followed through a
replacement of RAW that agrees below COUNT: its outcome is the same, with the same replacement. -/

namespace Sys2Proof.Machine

/-- The state with another RAW. -/
def State.withRaw (r : List (Nat × Bool)) (s : State) : State := { s with raw := r }

/-- Replacing RAW by r changes no bit below COUNT. -/
def State.SameRawBelowCount (r : List (Nat × Bool)) (s : State) : Prop :=
  ∀ j, j < s.count.toNat → (s.withRaw r).rawBit j = s.rawBit j

/-- An outcome with its next state changed. -/
def mapNext (g : State → State) : Result → Result
  | .next t => .next (g t)
  | .fault e => .fault e
  | .refused e => .refused e

@[simp] theorem mapNext_next (g : State → State) (t : State) : mapNext g (.next t) = .next (g t) := rfl
@[simp] theorem mapNext_fault (g : State → State) (e : Fault) : mapNext g (.fault e) = .fault e := rfl

section WithRaw
variable {r : List (Nat × Bool)} {s : State}

/-! ## The bits copied into WORK -/

theorem State.withRaw_capturedBits (h : s.SameRawBelowCount r) : (s.withRaw r).capturedBits = s.capturedBits :=
  List.map_congr_left fun j hj => h j (List.mem_range.1 hj)

theorem State.withRaw_reversedBits (h : s.SameRawBelowCount r) : (s.withRaw r).reversedBits = s.reversedBits := by
  refine List.map_congr_left fun j hj => h _ ?_
  have hj : j < s.count.toNat := List.mem_range.1 hj
  show s.count.toNat - 1 - j < s.count.toNat
  omega

theorem State.withRaw_copyRaw (h : s.SameRawBelowCount r) : (s.withRaw r).copyRaw = s.copyRaw.withRaw r :=
  congrArg (fun bits => { s.withRaw r with work := Memory.writeFrom s.work 0 bits }) (State.withRaw_capturedBits h)

theorem State.withRaw_copyRawReversed (h : s.SameRawBelowCount r) :
    (s.withRaw r).copyRawReversed = s.copyRawReversed.withRaw r :=
  congrArg (fun bits => { s.withRaw r with work := Memory.writeFrom s.work 0 bits }) (State.withRaw_reversedBits h)

/-- A copy into WORK leaves RAW, COUNT and the reset count alone. -/
theorem State.SameRawBelowCount.copyRaw (h : s.SameRawBelowCount r) : s.copyRaw.SameRawBelowCount r := h

theorem State.withRaw_normalize (h : s.SameRawBelowCount r) : (s.withRaw r).normalize = s.normalize.withRaw r := by
  cases s with
  | mk _ _ dir =>
    cases dir with
    | backward => exact State.withRaw_copyRawReversed h
    | forward | unknown => exact State.withRaw_copyRaw h

/-! ## What the stages read of WORK -/

@[simp] theorem State.withRaw_locateInWork (f : Format) : (s.withRaw r).locateInWork f = s.locateInWork f := rfl
@[simp] theorem State.withRaw_frameChars (f : Format) : (s.withRaw r).frameChars f = s.frameChars f := rfl

/-- The latched track selects the same format. -/
theorem State.withRaw_withFormat {k k' : Format → Result} (hk : ∀ f, k' f = mapNext (State.withRaw r) (k f)) :
    (s.withRaw r).withFormat k' = mapNext (State.withRaw r) (s.withFormat k) := by
  cases hf : s.trk.format with
  | none => rw [State.withFormat_none hf, State.withFormat_none (s := s.withRaw r) hf, mapNext_fault]
  | some f => rw [State.withFormat_some hf, State.withFormat_some (s := s.withRaw r) hf, hk]

/-! ## The stages -/

theorem execDetect_withRaw (h : s.SameRawBelowCount r) :
    execDetect (s.withRaw r) = mapNext (State.withRaw r) (execDetect s) := by
  refine State.withRaw_withFormat fun f => ?_
  rw [State.withRaw_copyRaw h, State.withRaw_copyRawReversed h.copyRaw, State.withRaw_locateInWork,
    State.withRaw_locateInWork]
  cases s.copyRaw.locateInWork f with
  | some p => rfl
  | none => cases s.copyRaw.copyRawReversed.locateInWork f <;> rfl

theorem execNormloc_withRaw (h : s.SameRawBelowCount r) :
    execNormloc (s.withRaw r) = mapNext (State.withRaw r) (execNormloc s) := by
  refine State.withRaw_withFormat fun f => ?_
  rw [State.withRaw_normalize h, State.withRaw_locateInWork]
  cases s.normalize.locateInWork f <;> rfl

theorem execDecodeChars_withRaw : execDecodeChars (s.withRaw r) = mapNext (State.withRaw r) (execDecodeChars s) := by
  refine State.withRaw_withFormat fun f => ?_
  rw [State.withRaw_frameChars]
  cases s.frameChars f <;> rfl

theorem execLrcCheck_withRaw : execLrcCheck (s.withRaw r) = mapNext (State.withRaw r) (execLrcCheck s) :=
  State.withRaw_withFormat fun _ => rfl

/-- DETECT and NORMLOC copy the bits below COUNT; the other three stages do not read RAW. -/
theorem exec_stage_withRaw {i : Instr} (hi : hostInstr i = false) (h : s.SameRawBelowCount r) :
    exec i (s.withRaw r) = mapNext (State.withRaw r) (exec i s) := by
  cases i with
  | detect => exact execDetect_withRaw h
  | normloc => exact execNormloc_withRaw h
  | decodeChars => exact execDecodeChars_withRaw
  | lrcCheck => exact execLrcCheck_withRaw
  | publish => rfl
  | rdCmd | rdStatus | rdCount | rdLength | rdErridx | rdSspos | rdEndpos | rdLrc | decodeT1 | decodeT2 | decodeT3
    | wrCount | wrRaw | rdRaw | rdText => cases hi

end WithRaw

/-- Settles O54: the outcome under the replacement is the given one, replaced. -/
theorem engineIgnoresRawAboveCount : Obligations.EngineIgnoresRawAboveCount := by
  intro s t i r hi hr ht
  have h := exec_stage_withRaw hi hr
  rwa [ht, mapNext_next] at h

end Sys2Proof.Machine

/-! PROOFS. The host decoder names host transactions alone (30_encoding.md R80). -/

namespace Sys2Proof.Machine

theorem hostInstr_of_decodeRegRead {addr : Reg} {i : Instr} (h : decodeRegRead addr = .ok i) : hostInstr i = true := by
  unfold decodeRegRead at h
  split at h <;> cases h <;> rfl

theorem hostInstr_of_decodeCommand {c : Reg} {i : Instr} (h : decodeCommand c = .ok i) : hostInstr i = true := by
  unfold decodeCommand at h
  split at h
  · cases h
  · split at h <;> cases h <;> rfl

theorem hostInstr_of_decodeRegWrite {addr data : Reg} {i : Instr} (h : decodeRegWrite addr data = .ok i) :
    hostInstr i = true := by
  unfold decodeRegWrite at h
  split at h
  · exact hostInstr_of_decodeCommand h
  · repeat' split at h
    all_goals cases h <;> rfl

theorem hostInstr_of_decodeRead {space : BitVec 2} {addr data : Reg} {i : Instr}
    (h : decodeRead space addr data = .ok i) : hostInstr i = true := by
  unfold decodeRead at h
  split at h
  · cases h
  · split at h
    · exact hostInstr_of_decodeRegRead h
    · split at h <;> cases h <;> rfl

theorem hostInstr_of_decodeWrite {space : BitVec 2} {addr data : Reg} {i : Instr}
    (h : decodeWrite space addr data = .ok i) : hostInstr i = true := by
  unfold decodeWrite at h
  split at h
  · exact hostInstr_of_decodeRegWrite h
  · repeat' split at h
    all_goals cases h <;> rfl

/-- A host word names no engine stage. -/
theorem hostInstr_of_decodeHt35 {w : Ht35} {i : Instr} (h : decodeHt35 w = .ok i) : hostInstr i = true := by
  unfold decodeHt35 at h
  split at h
  · cases h
  · split at h
    · exact hostInstr_of_decodeRead h
    · exact hostInstr_of_decodeWrite h

/-- While BUSY = 0 no stage is selected (30_encoding.md R90). -/
theorem decodeStage_code_of_not_busy {q : SeqState} (h : q.busy = false) :
    decodeStage q.code = .error .noEngineStage := by
  rcases q.busy_eq_false_iff.1 h with rfl | rfl | rfl <;> rfl

end Sys2Proof.Machine

/-! PROOFS. The result state stays until an acceptance or a reset (20_memory.md R75). -/

namespace Sys2Proof.Machine

/-! ## The result state -/

/-- What R75 keeps: STATUS, the result registers, TEXT, and the bytes of TEXT that the observation shows. -/
structure ResultState where
  status : Reg
  length : Reg
  erridx : Reg
  sspos : Reg
  endpos : Reg
  lrc : Reg
  text : List Host.Cell
  shown : List Byte

/-- The result state of a machine state. -/
def State.resultState (s : State) : ResultState where
  status := s.statusWord
  length := s.length
  erridx := s.erridx
  sspos := s.sspos
  endpos := s.endpos
  lrc := s.lrc
  text := s.text
  shown := s.observe.text

theorem State.resultState_eq_iff {s t : State} :
    t.resultState = s.resultState ↔
      t.statusWord = s.statusWord ∧ t.length = s.length ∧ t.erridx = s.erridx ∧ t.sspos = s.sspos ∧
      t.endpos = s.endpos ∧ t.lrc = s.lrc ∧ t.text = s.text ∧ t.observe.text = s.observe.text :=
  iff_of_eq (ResultState.mk.injEq ..)

/-! ## What leaves it alone -/

section Frame
variable (s : State)

@[simp] theorem State.popTurn_resultState : s.popTurn.resultState = s.resultState := rfl
@[simp] theorem State.popProgram_resultState : s.popProgram.resultState = s.resultState := rfl
@[simp] theorem State.refuse_resultState : s.refuse.resultState = s.resultState := rfl
@[simp] theorem State.useDraws_resultState (n : Nat) : (s.useDraws n).resultState = s.resultState := rfl
@[simp] theorem State.returnRead_resultState (v : Reg) : (s.returnRead v).resultState = s.resultState := rfl
@[simp] theorem State.setCount_resultState (n : Reg) : State.resultState { s with count := n } = s.resultState := rfl
@[simp] theorem State.setRaw_resultState (r : List (Nat × Bool)) :
    State.resultState { s with raw := r } = s.resultState := rfl

@[simp] theorem State.resume_resultState (op : HostOp) : (s.resume op).resultState = s.resultState := by
  cases op with
  | xfer w => rfl
  | append b => rfl
  | wait => simp only [State.resume]; split <;> rfl

@[simp] theorem State.resume_busy (op : HostOp) : (s.resume op).busy = s.busy := congrArg SeqState.busy (s.resume_seq op)

end Frame

/-! ## Host transactions -/

section Transactions
variable {s t : State}

theorem ReadOutcome.resultState_eq (h : ReadOutcome s (.next t)) : t.resultState = s.resultState := by
  rcases h with h | ⟨v, n, h⟩ <;> cases h
  · exact s.refuse_resultState
  · simp

theorem execWrCount_resultState {n : Reg} (ht : execWrCount n s = .next t) : t.resultState = s.resultState := by
  by_cases h : s.busy = true ∨ s.cap < n.toNat
  · rw [execWrCount_refused h] at ht
    cases ht
    exact s.refuse_resultState
  · rw [execWrCount_stored h] at ht
    cases ht
    exact s.setCount_resultState n

theorem execWrRaw_resultState {i : Reg} {b : Bool} (ht : execWrRaw i b s = .next t) :
    t.resultState = s.resultState := by
  by_cases h : s.busy = true ∨ s.cap ≤ i.toNat
  · rw [execWrRaw_refused b h] at ht
    cases ht
    exact s.refuse_resultState
  · rw [execWrRaw_stored b h] at ht
    cases ht
    exact s.setRaw_resultState _

/-- An acceptance ends in BUSY = 1, so a DECODE that ends in BUSY = 0 was refused. -/
theorem startDecode_resultState {k : TrackCode} (ht : s.startDecode k = .next t) (hbusy : t.busy = false) :
    t.resultState = s.resultState := by
  rcases State.startDecode_eq k s with ⟨_, h⟩ | ⟨_, h⟩ <;> rw [h] at ht <;> cases ht
  · cases hbusy
  · exact s.refuse_resultState

/-- A host transaction that ends in BUSY = 0 leaves the result state alone. -/
theorem exec_host_resultState {i : Instr} (hi : hostInstr i = true) (ht : exec i s = .next t) (hbusy : t.busy = false) :
    t.resultState = s.resultState := by
  by_cases hr : readInstr i = true
  · have h := exec_readOutcome s hr
    rw [ht] at h
    exact h.resultState_eq
  cases i with
  | decodeT1 => exact startDecode_resultState (k := .t1) ht hbusy
  | decodeT2 => exact startDecode_resultState (k := .t2) ht hbusy
  | decodeT3 => exact startDecode_resultState (k := .t3) ht hbusy
  | wrCount n => exact execWrCount_resultState ht
  | wrRaw a b => exact execWrRaw_resultState ht
  | rdRaw | rdText => simp [readInstr, encode] at hr
  | rdCmd | rdStatus | rdCount | rdLength | rdErridx | rdSspos | rdEndpos | rdLrc => exact absurd (by decide) hr
  | detect | normloc | decodeChars | lrcCheck | publish => exact absurd hi (by decide)

end Transactions

/-- Settles O58: with BUSY = 0 no stage runs, and the transactions that end in BUSY = 0 leave the result state alone. -/
theorem resultsStayUntilAcceptanceOrReset : Obligations.ResultsStayUntilAcceptanceOrReset := by
  intro s t hstep hs ht hreset
  rw [← State.resultState_eq_iff]
  have hpop : s.popTurn.popProgram.resultState = s.resultState := by simp
  rcases step_cases hstep with ⟨rfl, _⟩ | ⟨rfl, _⟩ | ⟨_, h⟩ | ⟨_, i, hi, _⟩ |
    ⟨_, op, _, _, ⟨rfl, _⟩ | ⟨i, hi, hexec | ⟨u, hexec, rfl⟩⟩⟩
  · rfl
  · exact s.popTurn_resultState
  · exact absurd h hreset
  · rw [decodeStage_code_of_not_busy hs] at hi
    cases hi
  · exact (State.refuse_resultState _).trans hpop
  · exact (exec_host_resultState (hostInstr_of_decodeHt35 hi) hexec ht).trans hpop
  · rw [State.resume_busy] at ht
    rw [State.resume_resultState]
    exact (exec_host_resultState (hostInstr_of_decodeHt35 hi) hexec ht).trans hpop

end Sys2Proof.Machine

/-! PROOFS. The decoder accepts one word per instruction (30_encoding.md R93, R94). Each decoding function is inverted once:
what it accepts is encoded with the fields it was given. -/

namespace Sys2Proof

/-! ## Words from their fields -/

/-- A command word is made of its four fields. -/
theorem cmdWord_fields (c : Reg) : cmdReservedHigh c ++ cmdOp c ++ cmdReservedLow c ++ cmdTrack c = c := by
  have hhigh : c.extractLsb' 8 8 ++ c.extractLsb' 4 4 = c.extractLsb' 4 12 :=
    BitVec.extractLsb'_append_extractLsb'_eq_extractLsb' rfl
  have hmid : c.extractLsb' 4 12 ++ c.extractLsb' 2 2 = c.extractLsb' 2 14 :=
    BitVec.extractLsb'_append_extractLsb'_eq_extractLsb' rfl
  have hlow : c.extractLsb' 2 14 ++ c.extractLsb' 0 2 = c := BitVec.extractLsb'_append_extractLsb'
  rw [cmdReservedHigh, cmdOp, cmdReservedLow, cmdTrack, hhigh, hmid, hlow]

/-- A command word with OP = DECODE and clear reserved bits is the DECODE word of its track. -/
theorem decodeCommandWord_cmdTrack {c : Reg} (hhigh : cmdReservedHigh c = 0) (hlow : cmdReservedLow c = 0)
    (hop : cmdOp c = 1) : decodeCommandWord (cmdTrack c) = c := by
  conv_rhs => rw [← cmdWord_fields c, hhigh, hlow, hop]
  rfl

/-- A data field with DATA[15:1] = 0 is its bit 0, zero extended. -/
theorem setWidth_ofBool_getLsbD_zero {d : Reg} (h : d.extractLsb' 1 15 = 0) :
    (BitVec.ofBool (d.getLsbD 0)).setWidth 16 = d := by
  apply BitVec.eq_of_toNat_eq
  have h := congrArg BitVec.toNat h
  have hd := d.isLt
  simp only [BitVec.extractLsb'_toNat, Nat.shiftRight_eq_div_pow, BitVec.ofNat_eq_ofNat, BitVec.toNat_ofNat] at h
  rw [← BitVec.setWidth_one, BitVec.toNat_setWidth, BitVec.toNat_setWidth]
  omega

/-! ## The decoding functions, inverted -/

theorem encode_of_decodeRegRead {addr : Reg} {i : Instr} (h : decodeRegRead addr = .ok i) :
    encode i = .ht35 (ht35Word 0 0 addr 0) := by
  unfold decodeRegRead at h
  split at h <;> cases h
  all_goals
    rename_i haddr
    rw [(BitVec.toNat_eq_nat.1 haddr).2]
    rfl

theorem encode_of_decodeCommand {c : Reg} {i : Instr} (h : decodeCommand c = .ok i) :
    encode i = .ht35 (ht35Word 1 0 0 c) := by
  unfold decodeCommand at h
  split at h
  · cases h
  · rename_i hfields
    simp only [not_or, not_not] at hfields
    obtain ⟨hhigh, hlow, hop⟩ := hfields
    rw [← decodeCommandWord_cmdTrack hhigh hlow hop]
    split at h <;> cases h
    all_goals
      rename_i htrack
      rw [(BitVec.toNat_eq_nat.1 htrack).2]
      rfl

theorem encode_of_decodeRegWrite {addr data : Reg} {i : Instr} (h : decodeRegWrite addr data = .ok i) :
    encode i = .ht35 (ht35Word 1 0 addr data) := by
  unfold decodeRegWrite at h
  split at h
  case isTrue haddr => rw [haddr]; exact encode_of_decodeCommand h
  case isFalse =>
    split at h
    case isTrue haddr => rw [haddr]; cases h; rfl
    case isFalse => split at h <;> cases h

/-- The third buffer space is TEXT: SPACE = 10 is what is left of the two bits. -/
theorem space_eq_two {space : BitVec 2} (h0 : space ≠ 0) (h1 : space ≠ 1) (h3 : space ≠ 3) : space = 2 := by
  revert space
  decide

theorem encode_of_decodeRead {space : BitVec 2} {addr data : Reg} {i : Instr} (hspace : space ≠ 3)
    (h : decodeRead space addr data = .ok i) : encode i = .ht35 (ht35Word 0 space addr data) := by
  unfold decodeRead at h
  split at h
  case isTrue => cases h
  case isFalse hdata =>
    rw [not_not.1 hdata]
    split at h
    case isTrue hreg => rw [hreg]; exact encode_of_decodeRegRead h
    case isFalse hreg =>
      split at h
      case isTrue hraw => rw [hraw]; cases h; rfl
      case isFalse hraw => rw [space_eq_two hreg hraw hspace]; cases h; rfl

theorem encode_of_decodeWrite {space : BitVec 2} {addr data : Reg} {i : Instr}
    (h : decodeWrite space addr data = .ok i) : encode i = .ht35 (ht35Word 1 space addr data) := by
  unfold decodeWrite at h
  split at h
  case isTrue hreg => rw [hreg]; exact encode_of_decodeRegWrite h
  case isFalse =>
    split at h
    case isTrue hraw =>
      rw [hraw]
      split at h <;> cases h
      rename_i hdata
      rw [encode, setWidth_ofBool_getLsbD_zero (not_not.1 hdata)]
    case isFalse => cases h

theorem encode_of_decodeHt35 {w : Ht35} {i : Instr} (h : decodeHt35 w = .ok i) : encode i = .ht35 w := by
  unfold decodeHt35 at h
  split at h
  case isTrue => cases h
  case isFalse hspace =>
    rw [← ht35Word_fields w]
    split at h
    case isTrue hread => rw [hread]; exact encode_of_decodeRead hspace h
    case isFalse hwrite =>
      rw [(ht35Rw w).eq_zero_or_eq_one.resolve_left hwrite]
      exact encode_of_decodeWrite h

theorem encode_of_decodeStage {c : StageCode} {i : Instr} (h : decodeStage c = .ok i) : encode i = .stage c := by
  unfold decodeStage at h
  split at h <;> cases h
  all_goals
    rename_i hcode
    rw [(BitVec.toNat_eq_nat.1 hcode).2]
    rfl

/-- Settles O2: the inversions of the two formats' decoders. -/
theorem encodeOfDecodeIsTheWord : Obligations.EncodeOfDecodeIsTheWord := by
  rintro (w | c) i h
  · exact encode_of_decodeHt35 h
  · exact encode_of_decodeStage h

end Sys2Proof

/-! PROOFS. Whose turn it is and what the step runs then, as equations: ENGINE's stage by STATUS.STATE (30_encoding.md R90,
46_sequencer.md R170), EXT's next transaction (20_memory.md R72) and WAIT's poll (30_encoding.md R95). -/

namespace Sys2Proof.Machine

/-! ## Turns -/

/-- It is ENGINE's turn, with `rest` fixed after it: the schedule's, or the default one while BUSY = 1 (logs 6, 19). -/
def State.EngineTurn (s : State) (rest : List Turn) : Prop :=
  s.schedule = .engine :: rest ∨ (s.schedule = [] ∧ rest = [] ∧ s.busy = true)

/-- It is EXT's turn, with `rest` fixed after it: the schedule's, or the default one while BUSY = 0 (log 6). -/
def State.ExtTurn (s : State) (rest : List Turn) : Prop :=
  s.schedule = .ext :: rest ∨ (s.schedule = [] ∧ rest = [] ∧ s.busy = false)

section Turns
variable {s : State} {op : HostOp} {ops : List HostOp} {rest : List Turn}

theorem State.popTurn_eq (h : s.schedule.tail = rest) : s.popTurn = { s with schedule := rest } := by
  rw [← h]
  rfl

theorem State.popProgram_eq (h : s.program = op :: ops) : s.popProgram = { s with program := ops } := by
  rw [State.popProgram, h, List.tail_cons]

theorem State.nextTurn_engine (h : s.EngineTurn rest) :
    s.nextTurn = some .engine ∧ s.popTurn = { s with schedule := rest } := by
  rcases h with h | ⟨h, rfl, hbusy⟩
  · exact ⟨by simp [State.nextTurn, h], State.popTurn_eq (by rw [h, List.tail_cons])⟩
  · exact ⟨by simp [State.nextTurn, h, hbusy], State.popTurn_eq (by rw [h, List.tail_nil])⟩

/-- EXT's default turn needs a program that lasts. -/
theorem State.nextTurn_ext (hp : s.program = op :: ops) (h : s.ExtTurn rest) :
    s.nextTurn = some .ext ∧ s.popTurn.popProgram = { s with program := ops, schedule := rest } := by
  rcases h with h | ⟨h, rfl, hbusy⟩
  · refine ⟨by simp [State.nextTurn, h], ?_⟩
    rw [State.popProgram_eq (s := s.popTurn) hp, State.popTurn_eq (by rw [h, List.tail_cons])]
  · refine ⟨by simp [State.nextTurn, h, hbusy, hp], ?_⟩
    rw [State.popProgram_eq (s := s.popTurn) hp, State.popTurn_eq (by rw [h, List.tail_nil])]

end Turns

/-! ## ENGINE's step -/

section EngineStep
variable {s : State} {rest : List Turn} {i : Instr}

theorem step_engine_ok (h : s.EngineTurn rest) (hd : decodeStage s.seq.code = .ok i) :
    step s = exec i { s with schedule := rest } := by
  obtain ⟨hturn, hpop⟩ := State.nextTurn_engine h
  rw [step, State.nextMove_engine hturn, State.engineMove, State.popTurn_seq, hd, hpop]

theorem step_engine_error {e : DecodeReject} (h : s.EngineTurn rest) (hd : decodeStage s.seq.code = .error e) :
    step s = .next { s with schedule := rest } := by
  obtain ⟨hturn, hpop⟩ := State.nextTurn_engine h
  rw [step, State.nextMove_engine hturn, State.engineMove, State.popTurn_seq, hd, hpop]

end EngineStep

/-- Settles O37: the stage of each busy state by its code; no code of a state with BUSY = 0 selects a stage. -/
theorem stepRunsTheSelectedStage : Obligations.StepRunsTheSelectedStage := by
  intro s rest h
  have runs {q : SeqState} {i : Instr} (hd : decodeStage q.code = .ok i) (hq : s.seq = q) :
      step s = exec i { s with schedule := rest } := step_engine_ok h (by rw [hq, hd])
  exact ⟨runs rfl, runs rfl, runs rfl, runs rfl, runs rfl,
    fun hbusy => step_engine_error h (decodeStage_code_of_not_busy hbusy)⟩

/-! ## EXT's step -/

section ExtStep
variable {s : State} {op : HostOp} {ops : List HostOp} {rest : List Turn}

/-- The move of EXT's turn is that of its program's head, at the state with the operation issued and the turn used. -/
theorem State.nextMove_hostMove (hp : s.program = op :: ops) (h : s.ExtTurn rest) :
    s.nextMove = State.hostMove op { s with program := ops, schedule := rest } := by
  obtain ⟨hturn, hpop⟩ := State.nextTurn_ext hp h
  rw [State.nextMove_ext hturn, State.extMove_cons (s := s.popTurn) hp, hpop]

theorem step_xfer_ok {w : Ht35} {i : Instr} (hp : s.program = .xfer w :: ops) (h : s.ExtTurn rest) (hd : decodeHt35 w = .ok i) :
    step s = exec i { s with program := ops, schedule := rest } := by
  rw [step, State.nextMove_hostMove hp h, State.hostMove, HostOp.word, hd]

theorem step_xfer_error {w : Ht35} {e : DecodeReject} (hp : s.program = .xfer w :: ops) (h : s.ExtTurn rest) (hd : decodeHt35 w = .error e) :
    step s = .next { s with program := ops, schedule := rest, refused := true } := by
  rw [step, State.nextMove_hostMove hp h, State.hostMove, HostOp.word, hd]
  rfl

/-- WAIT issues RD STATUS and acts on its value (R95). -/
theorem step_wait (hp : s.program = .wait :: ops) (h : s.ExtTurn rest) :
    step s = resumeOutcome .wait (execRdStatus { s with program := ops, schedule := rest }) := by
  have hd : decodeHt35 (HostOp.word .wait) = .ok .rdStatus := by decide
  rw [step, State.nextMove_hostMove hp h, State.hostMove, hd]
  rfl

/-- APPEND b issues RD COUNT and then its writes at the value read (R95). -/
theorem step_append {b : Bool} (hp : s.program = .append b :: ops) (h : s.ExtTurn rest) :
    step s = resumeOutcome (.append b) (execRdCount { s with program := ops, schedule := rest }) := by
  have hd : decodeHt35 (HostOp.append b).word = .ok .rdCount := by rw [HostOp.word]; decide
  rw [step, State.nextMove_hostMove hp h, State.hostMove, hd]
  rfl

end ExtStep

/-- Settles O36: a word that decodes is run, one that does not is refused. -/
theorem stepRunsTheNextTransaction : Obligations.StepRunsTheNextTransaction :=
  fun _ _ _ _ hp h => ⟨fun _ hd => step_xfer_ok hp h hd, fun _ hd => step_xfer_error hp h hd⟩

/-! ## WAIT -/

@[simp] theorem State.lastRead_returnRead (v : Reg) (s : State) : (s.returnRead v).lastRead = v := by
  simp [State.lastRead]

/-- WAIT stays first in the program while the value read shows BUSY = 1 (R95). -/
theorem State.resume_wait_busy {v : Reg} (s : State) (hv : v.getLsbD 3 = true) :
    (s.returnRead v).resume .wait = { s.returnRead v with program := .wait :: s.program } := by
  rw [State.resume, State.lastRead_returnRead, if_pos hv, State.returnRead_program]

/-- At BUSY = 0 the program goes on after WAIT (R95). -/
theorem State.resume_wait_not_busy {v : Reg} (s : State) (hv : v.getLsbD 3 = false) :
    (s.returnRead v).resume .wait = s.returnRead v := by
  rw [State.resume, State.lastRead_returnRead, if_neg (Bool.eq_false_iff.1 hv)]

theorem execRdStatus_busy {s : State} (h : s.busy = true) :
    execRdStatus s = .next ((s.useDraws 3).returnRead (s.statusWhileBusy s.draws)) := if_pos h

theorem execRdStatus_not_busy {s : State} (h : s.busy = false) :
    execRdStatus s = .next (s.returnRead s.statusWord) := if_neg (Bool.eq_false_iff.1 h)

/-- Settles O38: bit 3 of the value read is BUSY, by the layout of STATUS. -/
theorem waitPollsUntilNotBusy : Obligations.WaitPollsUntilNotBusy := by
  intro s ops rest hp h
  rw [step_wait hp h]
  cases hbusy : s.busy with
  | true =>
    have hv : (s.statusWhileBusy s.draws).getLsbD 3 = true := statusLayout_busy ..
    rw [execRdStatus_busy (show State.busy { s with program := ops, schedule := rest } = true from hbusy)]
    exact ⟨_, fun _ => ⟨hv, congrArg Host.Outcome.next (State.resume_wait_busy _ hv)⟩, nofun⟩
  | false =>
    have hv : s.statusWord.getLsbD 3 = false := (statusLayout_busy ..).trans hbusy
    rw [execRdStatus_not_busy (show State.busy { s with program := ops, schedule := rest } = false from hbusy)]
    exact ⟨_, nofun, fun _ => ⟨rfl, congrArg Host.Outcome.next (State.resume_wait_not_busy _ hv)⟩⟩

end Sys2Proof.Machine

/-! PROOFS. The range checks of host transactions (30_encoding.md R91 items 6, 7, 8, 10). -/

namespace Sys2Proof.Machine

section Ranges
variable {s : State}

theorem execRdRaw_refused {i : Reg} (h : s.cap ≤ i.toNat) : execRdRaw i s = .next s.refuse := if_pos h

theorem execRdRaw_returns {i : Reg} (h : i.toNat < s.cap) :
    execRdRaw i s = .next (s.returnRead ((BitVec.ofBool (s.rawBit i.toNat)).setWidth 16)) := if_neg (Nat.not_le.2 h)

theorem execRdText_refused {n : Reg} (h : s.outCap ≤ n.toNat) : execRdText n s = .next s.refuse :=
  congrArg _ (if_pos h)

/-- Below OUT_CAP, RDTEXT answers with a byte or a draw; the mark stays (R195). -/
theorem State.readText_refused {n : Nat} (h : n < s.outCap) : (s.readText n).refused = s.refused := by
  rw [State.readText, if_neg (Nat.not_le.2 h)]
  split <;> rfl

/-- Answers a next state with the refusal mark as it was. -/
def KeepsMark (s : State) (r : Result) : Prop := ∃ t, r = .next t ∧ t.refused = s.refused

theorem readResult_keepsMark (v : Reg) : KeepsMark s (s.readResult v) := by
  rcases State.readResult_eq v s with ⟨_, h⟩ | ⟨_, h⟩
  · exact ⟨_, h, rfl⟩
  · exact ⟨_, h, rfl⟩

theorem startDecode_keepsMark (k : TrackCode) (hbusy : s.busy = false) : KeepsMark s (s.startDecode k) :=
  ⟨_, if_neg (Bool.eq_false_iff.1 hbusy), rfl⟩

/-- A transaction in range is no refusal while BUSY = 0. -/
theorem exec_keepsMark_of_wellFormed {i : Instr} (hi : hostInstr i = true) (hwf : i.wellFormed s.cap = true)
    (hbusy : s.busy = false) : KeepsMark s (exec i s) := by
  cases i with
  | rdCmd => exact ⟨_, rfl, rfl⟩
  | rdStatus => exact ⟨_, execRdStatus_not_busy hbusy, rfl⟩
  | rdCount => exact ⟨_, rfl, rfl⟩
  | rdLength => exact readResult_keepsMark s.length
  | rdErridx => exact readResult_keepsMark s.erridx
  | rdSspos => exact readResult_keepsMark s.sspos
  | rdEndpos => exact readResult_keepsMark s.endpos
  | rdLrc => exact readResult_keepsMark s.lrc
  | decodeT1 => exact startDecode_keepsMark .t1 hbusy
  | decodeT2 => exact startDecode_keepsMark .t2 hbusy
  | decodeT3 => exact startDecode_keepsMark .t3 hbusy
  | wrCount n => exact ⟨_, execWrCount_stored (by simpa [hbusy, Instr.wellFormed] using hwf), rfl⟩
  | wrRaw a b => exact ⟨_, execWrRaw_stored b (by simpa [hbusy, Instr.wellFormed] using hwf), rfl⟩
  | rdRaw a => exact ⟨_, execRdRaw_returns (of_decide_eq_true hwf), rfl⟩
  | rdText n => exact ⟨_, rfl, State.readText_refused (of_decide_eq_true hwf)⟩
  | detect | normloc | decodeChars | lrcCheck | publish => exact absurd hi (by decide)

/-- The four range checks, busy or not. -/
theorem exec_refuses_of_not_wellFormed {i : Instr} (hwf : i.wellFormed s.cap = false) : exec i s = .next s.refuse := by
  cases i with
  | wrCount n => exact execWrCount_refused (.inr (Nat.not_le.1 (of_decide_eq_false hwf)))
  | wrRaw a b => exact execWrRaw_refused b (.inr (Nat.not_lt.1 (of_decide_eq_false hwf)))
  | rdRaw a => exact execRdRaw_refused (Nat.not_lt.1 (of_decide_eq_false hwf))
  | rdText n => exact execRdText_refused (Nat.not_lt.1 (of_decide_eq_false hwf))
  | rdCmd | rdStatus | rdCount | rdLength | rdErridx | rdSspos | rdEndpos | rdLrc => cases hwf
  | decodeT1 | decodeT2 | decodeT3 | detect | normloc | decodeChars | lrcCheck | publish => cases hwf

end Ranges

/-- Settles O32: the transactions in range, and those out of range. -/
theorem rangeCheckedTransactionsAreRefused : Obligations.RangeCheckedTransactionsAreRefused :=
  fun _ _ hi => ⟨exec_keepsMark_of_wellFormed hi, exec_refuses_of_not_wellFormed⟩

end Sys2Proof.Machine

/-! PROOFS. APPEND and LOADBITS (30_encoding.md R95): undisturbed, with nothing scheduled and BUSY = 0, each step is EXT's, and
the run is followed transaction by transaction. -/

namespace Sys2Proof.Machine

/-! ## Runs of the machine, step by step -/

/-- A run whose first step answers a next state goes on from there. -/
theorem run_succ (M : Host.Core) {s u : M.State} (h : M.step s = .next u) (k : Nat) : M.run (k + 1) s = M.run k u := by
  rw [Host.Core.run, h]

/-- k steps lead from s to t. -/
def RunsTo (k : Nat) (s t : State) : Prop := Host.Core.run core k s = .next t

theorem RunsTo.refl (s : State) : RunsTo 0 s s := rfl

theorem RunsTo.head {k : Nat} {s u t : State} (h : step s = .next u) (hrun : RunsTo k u t) : RunsTo (k + 1) s t :=
  (run_succ core h k).trans hrun

/-! ## The words of the writes -/

theorem decodeHt35_wrRawWord (i : Reg) (b : Bool) : decodeHt35 (wrRawWord i b) = .ok (.wrRaw i b) := by
  cases b <;> simp [wrRawWord, decodeHt35, decodeWrite]

theorem decodeHt35_wrCountWord (n : Reg) : decodeHt35 (wrCountWord n) = .ok (.wrCount n) := by
  simp [wrCountWord, decodeHt35, decodeWrite, decodeRegWrite]

/-! ## Undisturbed steps -/

section Undisturbed
variable {s : State} {ops : List HostOp} {b : Bool} {n : Reg} (hs : s.schedule = []) (hbusy : s.busy = false)
include hs hbusy

theorem step_wrRaw (hp : s.program = .xfer (wrRawWord n b) :: ops) :
    step s = execWrRaw n b { s with program := ops } :=
  step_xfer_ok hp (.inr ⟨hs, hs, hbusy⟩) (decodeHt35_wrRawWord n b)

theorem step_wrCount (hp : s.program = .xfer (wrCountWord n) :: ops) :
    step s = execWrCount n { s with program := ops } :=
  step_xfer_ok hp (.inr ⟨hs, hs, hbusy⟩) (decodeHt35_wrCountWord n)

theorem step_wrRaw_stored (hp : s.program = .xfer (wrRawWord n b) :: ops) (hcap : n.toNat < s.cap) :
    step s = .next { s with program := ops, raw := Memory.write s.raw n.toNat b } :=
  (step_wrRaw hs hbusy hp).trans (execWrRaw_stored b (not_or.2 ⟨Bool.eq_false_iff.1 hbusy, Nat.not_le.2 hcap⟩))

theorem step_wrRaw_refused (hp : s.program = .xfer (wrRawWord n b) :: ops) (hcap : s.cap ≤ n.toNat) :
    step s = .next { s with program := ops, refused := true } :=
  (step_wrRaw hs hbusy hp).trans (execWrRaw_refused b (.inr hcap))

theorem step_wrCount_stored (hp : s.program = .xfer (wrCountWord n) :: ops) (hcap : n.toNat ≤ s.cap) :
    step s = .next { s with program := ops, count := n } :=
  (step_wrCount hs hbusy hp).trans (execWrCount_stored (not_or.2 ⟨Bool.eq_false_iff.1 hbusy, Nat.not_lt.2 hcap⟩))

theorem step_wrCount_refused (hp : s.program = .xfer (wrCountWord n) :: ops) (hcap : s.cap < n.toNat) :
    step s = .next { s with program := ops, refused := true } :=
  (step_wrCount hs hbusy hp).trans (execWrCount_refused (.inr hcap))

/-- APPEND's RD COUNT puts its writes at the value read first in the program. -/
theorem step_append_reads (hp : s.program = .append b :: ops) :
    step s = .next { s with program := appendWrites s.count b ++ ops, reads := s.reads ++ [s.count] } := by
  rw [step_append hp (.inr ⟨hs, hs, hbusy⟩), execRdCount, resumeOutcome, State.resume, State.lastRead_returnRead]
  rfl

end Undisturbed

/-! ## APPEND -/

theorem appendWrites_append_of_lt {n : Reg} (h : n.toNat + 1 < 2 ^ 16) (b : Bool) (ops : List HostOp) :
    appendWrites n b ++ ops = .xfer (wrRawWord n b) :: .xfer (wrCountWord (n + 1)) :: ops := by
  rw [appendWrites, if_pos h, List.cons_append, List.singleton_append]

theorem appendWrites_append_of_max {n : Reg} (h : n.toNat = 65535) (b : Bool) (ops : List HostOp) :
    appendWrites n b ++ ops = .xfer (wrRawWord n b) :: ops := by
  rw [appendWrites, if_neg (by omega), List.singleton_append]

/-- RAW read after a write of one bit. -/
theorem State.withRaw_write_rawBit (s : State) (i j : Nat) (b : Bool) :
    (s.withRaw (Memory.write s.raw i b)).rawBit j = if j = i then b else s.rawBit j := by
  rw [State.rawBit, State.withRaw, Memory.read_write]
  split <;> rfl

/-- Settles O39: RD COUNT, the WRRAW below the capacity, and the WR COUNT up to it. -/
theorem appendWritesTheNextBit : Obligations.AppendWritesTheNextBit := by
  intro s b ops hp hs hbusy hcount hcap
  have hlt : s.count.toNat + 1 < 2 ^ 16 := by omega
  have hn : (s.count + 1).toNat = s.count.toNat + 1 := BitVec.toNat_add_of_lt hlt
  have h1 := step_append_reads hs hbusy hp
  rw [appendWrites_append_of_lt hlt] at h1
  have hrun := RunsTo.head h1 <| .head (step_wrRaw_stored hs hbusy rfl hcount) <|
    .head (step_wrCount_stored hs hbusy rfl (hn.trans_le hcount)) <| .refl _
  exact ⟨_, hrun, rfl, hn, (s.withRaw_write_rawBit _ _ b).trans (if_pos rfl),
    fun j hj => (s.withRaw_write_rawBit _ j b).trans (if_neg hj)⟩

/-- Settles O40: RD COUNT, then each write refused; at COUNT = 65535 there is no WR COUNT. -/
theorem appendAtTheCapacityIsRefused : Obligations.AppendAtTheCapacityIsRefused := by
  intro s b ops hp hs hbusy hcap
  have h1 := step_append_reads hs hbusy hp
  by_cases hmax : s.count.toNat = 65535
  · rw [appendWrites_append_of_max hmax] at h1
    rw [if_pos hmax]
    exact RunsTo.head h1 <| .head (step_wrRaw_refused hs hbusy rfl hcap) <| .refl _
  · have hlt : s.count.toNat + 1 < 2 ^ 16 := by have := s.count.isLt; omega
    have hcap' : s.cap < (s.count + 1).toNat := by rw [BitVec.toNat_add_of_lt hlt]; exact Nat.lt_succ_of_le hcap
    rw [appendWrites_append_of_lt hlt] at h1
    rw [if_neg hmax]
    exact RunsTo.head h1 <| .head (step_wrRaw_refused hs hbusy rfl hcap) <|
      .head (step_wrCount_refused hs hbusy rfl hcap') <| .refl _

/-! ## LOADBITS -/

/-- The WRRAWs of LOADBITS write the bits at consecutive addresses. -/
theorem RunsTo.loadFrom {later : List HostOp} {k : Nat} {t : State} (bits : List Bool) {s : State} {i : Nat}
    (hs : s.schedule = []) (hbusy : s.busy = false) (hp : s.program = loadFrom i bits ++ later)
    (hcap : i + bits.length ≤ s.cap) (hmax : s.cap ≤ 65535)
    (hrun : RunsTo k { s with program := later, raw := Memory.writeFrom s.raw i bits } t) :
    RunsTo (bits.length + k) s t := by
  induction bits generalizing s i with
  | nil =>
    have hp : s.program = later := hp
    subst hp
    rw [List.length_nil, Nat.zero_add]
    exact hrun
  | cons b bits ih =>
    rw [List.length_cons] at hcap
    have hi : (BitVec.ofNat 16 i).toNat = i := Nat.mod_eq_of_lt (by omega)
    have hstep := step_wrRaw_stored hs hbusy hp (by omega)
    rw [hi] at hstep
    rw [List.length_cons, Nat.add_right_comm]
    refine .head hstep (ih (i := i + 1) hs hbusy rfl ?_ hmax hrun)
    show i + 1 + bits.length ≤ s.cap
    omega

theorem fieldOf_of_lt {n : Nat} (h : n < 2 ^ 16) : fieldOf n = some (BitVec.ofNat 16 n) := if_pos h

theorem assemble_loadbits {bits : List Bool} (h : bits.length < 2 ^ 16) :
    assemble (.loadbits bits) = some (loadFrom 0 bits ++ [.xfer (wrCountWord (BitVec.ofNat 16 bits.length))]) := by
  rw [assemble, fieldOf_of_lt h, Option.map_some]

/-- RAW read after a write of a sequence from address 0. -/
theorem State.withRaw_writeFrom_rawBit (s : State) (bits : List Bool) (j : Nat) :
    (s.withRaw (Memory.writeFrom s.raw 0 bits)).rawBit j = bits[j]?.getD (s.rawBit j) := by
  rw [State.rawBit, State.withRaw, Memory.read_writeFrom_zero]
  cases bits[j]? <;> rfl

theorem bitsOf_eq_of_getElem {bit : Nat → Bool} {bits : List Bool} (h : ∀ j (hj : j < bits.length), bit j = bits[j]) :
    bitsOf bit bits.length = bits :=
  List.ext_getElem (length_bitsOf _ _) fun j _ hj => by simp [bitsOf, h j hj]

/-- Settles O41: the WRRAWs, then WR COUNT; RAW is read through the bits written from address 0. -/
theorem loadbitsLoadsTheSwipe : Obligations.LoadbitsLoadsTheSwipe := by
  intro s bits ops later hops hp hs hbusy hlen hcap
  have hk : (BitVec.ofNat 16 bits.length).toNat = bits.length := Nat.mod_eq_of_lt (by omega)
  rw [assemble_loadbits (by omega), Option.some.injEq] at hops
  rw [← hops, List.append_assoc, List.singleton_append] at hp
  have hrun := RunsTo.loadFrom bits hs hbusy hp (by omega) hcap <|
    .head (step_wrCount_stored hs hbusy rfl (hk.trans_le hlen)) <| .refl _
  have hread (j : Nat) := s.withRaw_writeFrom_rawBit bits j
  refine ⟨_, hrun, rfl, hk, ?_, fun j hj => ?_, fun j hj => ?_⟩
  · refine (congrArg _ hk).trans (bitsOf_eq_of_getElem fun j hj => (hread j).trans ?_)
    rw [List.getElem?_eq_getElem hj, Option.getD_some]
  · have hj : j < bits.length := hk ▸ hj
    show (Memory.read (Memory.writeFrom s.raw 0 bits) j).isSome = true
    rw [Memory.read_writeFrom_zero, List.getElem?_eq_getElem hj, Option.some_or, Option.isSome_some]
  · exact (hread j).trans (by rw [List.getElem?_eq_none hj, Option.getD_none])

end Sys2Proof.Machine

/-! PROOFS. What DETECT leaves in WORK, and its three outcomes (41_direction_detector.md R110 to R113). -/

namespace Sys2Proof.Machine

/-! ## WORK after both copies, the one as captured and then the reversed one -/

theorem State.copyRaw_copyRawReversed_workBit (s : State) {i : Nat} (h : i < s.count.toNat) :
    s.copyRaw.copyRawReversed.workBit i = s.rawBit (s.count.toNat - 1 - i) :=
  s.copyRaw.copyRawReversed_workBit h

theorem State.copyRaw_copyRawReversed_workBit_above (s : State) {i : Nat} (h : s.count.toNat ≤ i) :
    s.copyRaw.copyRawReversed.workBit i = s.workBit i :=
  (s.copyRaw.copyRawReversed_workBit_above h).trans (s.copyRaw_workBit_above h)

/-- Settles O11: the three outcomes of the stage, with WORK as the one copy or both copies left it. -/
theorem detectTriesForwardThenBackward : Obligations.DetectTriesForwardThenBackward := by
  intro s f hf
  rcases execDetect_cases hf with ⟨p, hp, h⟩ | ⟨hfwd, p, hp, h⟩ | ⟨hfwd, hback, h⟩
  · exact ⟨_, h, rfl, fun _ => s.copyRaw_workBit_above,
      .inl ⟨p, hp, rfl, rfl, rfl, rfl, rfl, rfl, fun _ => s.copyRaw_workBit⟩⟩
  · exact ⟨_, h, rfl, fun _ => s.copyRaw_copyRawReversed_workBit_above,
      .inr (.inl ⟨hfwd, p, hp, rfl, rfl, rfl, rfl, rfl, rfl, fun _ => s.copyRaw_copyRawReversed_workBit⟩)⟩
  · exact ⟨_, h, rfl, fun _ => s.copyRaw_copyRawReversed_workBit_above,
      .inr (.inr ⟨hfwd, hback, rfl, rfl, rfl, rfl, rfl, rfl, fun _ => s.copyRaw_copyRawReversed_workBit⟩)⟩

end Sys2Proof.Machine

/-! PROOFS. The ENGINE alone writes its own state only (41_direction_detector.md R115, 10_state.md R20). -/

namespace Sys2Proof.Machine

/-! ## Runs of the ENGINE, stage by stage -/

section EngineRun
variable {s t u : State} {i : Instr}

/-- A state that selects no stage is where the run rests. -/
theorem engineRun_succ_error {e : DecodeReject} (hd : decodeStage s.seq.code = .error e) (k : Nat) :
    engineRun (k + 1) s = .next s := by simp [engineRun, hd]

/-- A run whose selected stage answers a next state goes on from there. -/
theorem engineRun_succ_ok (hd : decodeStage s.seq.code = .ok i) (hi : exec i s = .next u) (k : Nat) :
    engineRun (k + 1) s = engineRun k u := by simp [engineRun, hd, hi]

/-- A run that answers a next state rests at once, or goes on from the selected stage's next state. -/
theorem engineRun_succ_cases {k : Nat} (h : engineRun (k + 1) s = .next t) :
    (t = s ∧ ∃ e, decodeStage s.seq.code = .error e) ∨
    ∃ i u, decodeStage s.seq.code = .ok i ∧ exec i s = .next u ∧ engineRun k u = .next t := by
  cases hd : decodeStage s.seq.code with
  | error e =>
    rw [engineRun_succ_error hd] at h
    cases h
    exact .inl ⟨rfl, e, rfl⟩
  | ok i =>
    cases hi : exec i s with
    | next u => exact .inr ⟨i, u, rfl, hi, (engineRun_succ_ok hd hi k).symm.trans h⟩
    | fault | refused => simp [engineRun, hd, hi] at h

theorem hostInstr_of_decodeStage {c : StageCode} (hd : decodeStage c = .ok i) : hostInstr i = false := by
  simp [hostInstr, encode_of_decodeStage hd]

end EngineRun

/-! ## The state outside the ENGINE -/

/-- The state with all that the ENGINE writes cleared: what is left is EXT's, the latched TRK among it, or the model's own. -/
def State.outside (s : State) : State :=
  { s with
    seq := .idle, reason := .noReason, dir := .unknown, valid := false, length := 0, erridx := 0, sspos := 0,
    endpos := 0, lrc := 0, work := [], text := [], acc := 0, ndata := 0 }

/-- Equal outside the ENGINE: the one state is the other with its own ENGINE state. -/
theorem State.eq_of_outside_eq {s t : State} (h : t.outside = s.outside) :
    t = { s with seq := t.seq, reason := t.reason, dir := t.dir, valid := t.valid, length := t.length, erridx := t.erridx,
                 sspos := t.sspos, endpos := t.endpos, lrc := t.lrc, work := t.work, text := t.text, acc := t.acc,
                 ndata := t.ndata } :=
  congrArg
    (fun u : State =>
      { u with seq := t.seq, reason := t.reason, dir := t.dir, valid := t.valid, length := t.length, erridx := t.erridx,
               sspos := t.sspos, endpos := t.endpos, lrc := t.lrc, work := t.work, text := t.text, acc := t.acc,
               ndata := t.ndata }) h

section Outside
variable {s t : State}

theorem State.normalize_outside (s : State) : s.normalize.outside = s.outside := by
  simp [State.outside]

theorem execDetect_outside (h : execDetect s = .next t) : t.outside = s.outside := by
  obtain ⟨f, hf, -⟩ := State.withFormat_next h
  rcases execDetect_cases hf with ⟨_, _, e⟩ | ⟨_, _, _, e⟩ | ⟨_, _, e⟩ <;> rw [e] at h <;> cases h <;> rfl

theorem execNormloc_outside (h : execNormloc s = .next t) : t.outside = s.outside := by
  obtain ⟨f, hf, -⟩ := State.withFormat_next h
  rcases execNormloc_cases hf with ⟨p, _, e⟩ | ⟨_, e⟩ <;> rw [e] at h <;> cases h
  exact s.normalize_outside

theorem execDecodeChars_outside (h : execDecodeChars s = .next t) : t.outside = s.outside := by
  obtain ⟨f, hf, -⟩ := State.withFormat_next h
  rcases execDecodeChars_cases hf with ⟨_, _, e⟩ | ⟨_, _, _, e⟩ <;> rw [e] at h <;> cases h <;> rfl

theorem execLrcCheck_outside (h : execLrcCheck s = .next t) : t.outside = s.outside := by
  obtain ⟨f, hf, -⟩ := State.withFormat_next h
  rw [execLrcCheck_eq hf] at h
  cases h
  rfl

/-- No stage writes outside the ENGINE's own state. -/
theorem exec_stage_outside {i : Instr} (hi : hostInstr i = false) (h : exec i s = .next t) : t.outside = s.outside := by
  cases i with
  | detect => exact execDetect_outside h
  | normloc => exact execNormloc_outside h
  | decodeChars => exact execDecodeChars_outside h
  | lrcCheck => exact execLrcCheck_outside h
  | publish => cases h; rfl
  | rdCmd | rdStatus | rdCount | rdLength | rdErridx | rdSspos | rdEndpos | rdLrc | decodeT1 | decodeT2 | decodeT3
    | wrCount | wrRaw | rdRaw | rdText => cases hi

theorem engineRun_outside {k : Nat} (h : engineRun k s = .next t) : t.outside = s.outside := by
  induction k generalizing s with
  | zero => cases h; rfl
  | succ k ih =>
    rcases engineRun_succ_cases h with ⟨rfl, _⟩ | ⟨i, u, hd, hi, hrun⟩
    · rfl
    · exact (ih hrun).trans (exec_stage_outside (hostInstr_of_decodeStage hd) hi)

end Outside

/-- Settles O52: the induction over the ENGINE's steps, on the state outside the ENGINE. -/
theorem engineWritesOnlyItsOwnState : Obligations.EngineWritesOnlyItsOwnState :=
  fun _ _ _ h => State.eq_of_outside_eq (engineRun_outside h)

end Sys2Proof.Machine

/-! PROOFS. A decode call does not read what earlier calls left in WORK and TEXT (41_direction_detector.md R115). Each stage is
followed through a replacement of the two buffers that agrees on what the stages after it read: its outcome is the same, with
such a replacement again. -/

namespace Sys2Proof.Machine

/-! ## The passes of DECODE_CHARS, with another TEXT -/

/-- Two buffers read alike below an address. -/
def Memory.SameBelow {α : Type} (n : Nat) (m k : List (Nat × α)) : Prop :=
  ∀ a, a < n → Memory.read k a = Memory.read m a

/-- A write of the same value at the bound extends the agreement. -/
theorem Memory.SameBelow.write {α : Type} {n : Nat} {m k : List (Nat × α)} (h : Memory.SameBelow n m k) (v : α) :
    Memory.SameBelow (n + 1) (Memory.write m n v) (Memory.write k n v) := by
  intro a ha
  rw [Memory.read_write, Memory.read_write]
  split
  · rfl
  · exact h a (by omega)

/-- The loop variables with another TEXT. -/
def FramerVars.withText (x : List Host.Cell) (r : FramerVars) : FramerVars := { r with text := x }

/-- The loop variables where the loop ends. -/
def FramerEnd.vars : FramerEnd → FramerVars
  | .ended r => r
  | .failed _ r => r

/-- The end of the loop with another TEXT. -/
def FramerEnd.withText (x : List Host.Cell) : FramerEnd → FramerEnd
  | .ended r => .ended (r.withText x)
  | .failed why r => .failed why (r.withText x)

section Passes
variable {bit bit' : Nat → Bool} {n : Nat} {f : Format}

/-- A pass reads the n valid bits alone. -/
theorem framerPass_congr (h : ∀ i, i < n → bit' i = bit i) (r : FramerVars) :
    framerPass bit' n f r = framerPass bit n f r := by
  unfold framerPass
  split
  · rfl
  · rw [frame_congr fun k hk => h (r.cur + k) (by omega)]

theorem framerLoop_congr (h : ∀ i, i < n → bit' i = bit i) (fuel : Nat) (r : FramerVars) :
    framerLoop bit' n f fuel r = framerLoop bit n f fuel r := by
  induction fuel generalizing r with
  | zero => rfl
  | succ fuel ih => simp only [framerLoop, framerPass_congr h, ih]

/-- What a pass does with TEXT, whatever TEXT holds: it stops and leaves TEXT, goes on and leaves TEXT, or goes on and writes
the byte at NDATA (R145, R146). -/
theorem framerPass_withText (bit : Nat → Bool) (n : Nat) (f : Format) (r : FramerVars) :
    (∃ e : FramerEnd, e.vars.nd = r.nd ∧ ∀ x, framerPass bit n f (r.withText x) = .stop (e.withText x)) ∨
    (∃ q : FramerVars, q.nd = r.nd ∧ ∀ x, framerPass bit n f (r.withText x) = .more (q.withText x)) ∨
    (∃ (q : FramerVars) (b : Byte), q.nd = r.nd + 1 ∧
      ∀ x, framerPass bit n f (r.withText x) = .more (q.withText (Memory.write x r.nd b))) := by
  rcases framerPass_cases bit n f r with ⟨hlen, _⟩ | ⟨hlen, hodd, _⟩ | ⟨⟨hlen, hodd⟩, hidx, _⟩ |
    ⟨⟨hlen, hodd⟩, hidx, hes, _⟩ | ⟨⟨hlen, hodd⟩, hidx, hes, _⟩
  · exact .inl ⟨.failed .truncated r, rfl, fun x => if_pos hlen⟩
  · refine .inl ⟨.failed .parityError r, rfl, fun x => ?_⟩
    simp [framerPass, FramerVars.withText, FramerEnd.withText, hlen.not_gt, hodd]
  · refine .inr (.inl ⟨{ r with cur := r.cur + f.width, idx := 1 }, rfl, fun x => ?_⟩)
    simp [framerPass, FramerVars.withText, hlen.not_gt, hodd, hidx, accumulate, Config.lrcIncludeSs]
  · refine .inl ⟨.ended r, rfl, fun x => ?_⟩
    unfold FramerVars.value at hes
    simp [framerPass, FramerVars.withText, FramerEnd.withText, hlen.not_gt, hodd, hidx, hes, accumulate, Config.lrcIncludeEs]
  · refine .inr (.inr ⟨{ cur := r.cur + f.width, idx := r.idx + 1, nd := r.nd + 1, acc := r.acc ^^^ r.value bit f,
                         text := r.text }, asciiByte f (r.value bit f), rfl, fun x => ?_⟩)
    unfold FramerVars.value at hes ⊢
    simp [framerPass, FramerVars.withText, hlen.not_gt, hodd, hidx, hes, accumulate]

/-- Loops that differ in TEXT alone end alike, with TEXT the same below NDATA if it was so before. -/
theorem framerLoop_withText (fuel : Nat) (r : FramerVars) {x y : List Host.Cell} (h : Memory.SameBelow r.nd x y) :
    ∃ (e : FramerEnd) (x' y' : List Host.Cell),
      framerLoop bit n f fuel (r.withText x) = e.withText x' ∧ framerLoop bit n f fuel (r.withText y) = e.withText y' ∧
      Memory.SameBelow e.vars.nd x' y' := by
  induction fuel generalizing r x y with
  | zero => exact ⟨.failed .truncated r, x, y, rfl, rfl, h⟩
  | succ fuel ih =>
    simp only [framerLoop]
    rcases framerPass_withText bit n f r with ⟨e, hnd, hp⟩ | ⟨q, hnd, hp⟩ | ⟨q, b, hnd, hp⟩ <;> simp only [hp]
    · exact ⟨e, x, y, rfl, rfl, hnd ▸ h⟩
    · exact ih q (hnd ▸ h)
    · exact ih q (hnd ▸ h.write b)

end Passes

/-! ## States with other buffers -/

/-- The state with another WORK and another TEXT. -/
def State.withBuffers (w : List (Nat × Bool)) (x : List Host.Cell) (s : State) : State := { s with work := w, text := x }

/-- Replacing WORK by w changes no bit below COUNT. -/
def State.SameWorkBelowCount (w : List (Nat × Bool)) (s : State) : Prop :=
  ∀ j, j < s.count.toNat → State.workBit { s with work := w } j = s.workBit j

/-- Replacing WORK by w and TEXT by x changes nothing that is still to be read of them: DETECT and NORMLOC write WORK before they
read it, DECODE_CHARS and LRC_CHECK read WORK below COUNT, and the end of a call shows TEXT below LENGTH. -/
def State.SameLiveBuffers (w : List (Nat × Bool)) (x : List Host.Cell) (s : State) : Prop :=
  match s.seq with
  | .idle | .accepted | .directionDetected | .failed => True
  | .sentinelFound => s.SameWorkBelowCount w
  | .charactersDecoded => s.SameWorkBelowCount w ∧ Memory.SameBelow s.ndata.toNat s.text x
  | .checksumChecked => Memory.SameBelow s.ndata.toNat s.text x
  | .done => Memory.SameBelow s.length.toNat s.text x

/-- The outcome is the next state t but for its buffers, which agree with t's on what is still to be read. -/
def NextUpToBuffers (t : State) (r : Result) : Prop := ∃ w x, r = .next (t.withBuffers w x) ∧ t.SameLiveBuffers w x

section WithBuffers
variable {w : List (Nat × Bool)} {x : List Host.Cell} {s t : State} {f : Format}

/-! ## The stages -/

/-- A search of WORK reads it below COUNT alone (42_bit_reversal.md R125). -/
theorem State.SameWorkBelowCount.locateInWork (h : s.SameWorkBelowCount w) (x : List Host.Cell) (f : Format) :
    (s.withBuffers w x).locateInWork f = s.locateInWork f :=
  locate_congr h

/-- DETECT writes the same copies of RAW below COUNT over any WORK. -/
theorem State.copyRaw_sameWork (w : List (Nat × Bool)) (s : State) :
    s.copyRaw.SameWorkBelowCount (Memory.writeFrom w 0 s.capturedBits) := fun _ hj =>
  (State.copyRaw_workBit { s with work := w } hj).trans (s.copyRaw_workBit hj).symm

theorem State.copyRawReversed_sameWork (w : List (Nat × Bool)) (s : State) :
    s.copyRawReversed.SameWorkBelowCount (Memory.writeFrom w 0 s.reversedBits) := fun _ hj =>
  (State.copyRawReversed_workBit { s with work := w } hj).trans (s.copyRawReversed_workBit hj).symm

theorem execDetect_withBuffers (h : execDetect s = .next t) : NextUpToBuffers t (execDetect (s.withBuffers w x)) := by
  obtain ⟨f, hf, h⟩ := State.withFormat_next h
  have hfwd : (s.withBuffers w x).copyRaw.locateInWork f = s.copyRaw.locateInWork f :=
    (s.copyRaw_sameWork w).locateInWork x f
  have hback : (s.withBuffers w x).copyRaw.copyRawReversed.locateInWork f = s.copyRaw.copyRawReversed.locateInWork f :=
    (s.copyRaw.copyRawReversed_sameWork _).locateInWork x f
  rw [execDetect, State.withFormat_some (s := s.withBuffers w x) hf, hfwd, hback]
  cases h1 : s.copyRaw.locateInWork f with
  | some p =>
    simp only [h1] at h
    cases h
    exact ⟨_, _, rfl, trivial⟩
  | none =>
    cases h2 : s.copyRaw.copyRawReversed.locateInWork f with
    | some | none =>
      simp only [h1, h2] at h
      cases h
      exact ⟨_, _, rfl, trivial⟩

/-- NORMALIZE writes the same bits below COUNT over any WORK. -/
theorem State.withBuffers_normalize (w : List (Nat × Bool)) (x : List Host.Cell) (s : State) :
    ∃ w', (s.withBuffers w x).normalize = s.normalize.withBuffers w' x ∧ s.normalize.SameWorkBelowCount w' := by
  cases s with
  | mk _ _ dir =>
    cases dir with
    | backward => exact ⟨_, rfl, State.copyRawReversed_sameWork w _⟩
    | forward | unknown => exact ⟨_, rfl, State.copyRaw_sameWork w _⟩

theorem execNormloc_withBuffers (h : execNormloc s = .next t) : NextUpToBuffers t (execNormloc (s.withBuffers w x)) := by
  obtain ⟨f, hf, h⟩ := State.withFormat_next h
  obtain ⟨w', hnorm, hwork⟩ := s.withBuffers_normalize w x
  rw [execNormloc, State.withFormat_some (s := s.withBuffers w x) hf, hnorm, hwork.locateInWork]
  cases hp : s.normalize.locateInWork f <;> simp only [hp] at h <;> cases h
  exact ⟨w', x, rfl, hwork⟩

/-- The loop of DECODE_CHARS starts with NDATA = 0, so no byte of TEXT needs to agree before it. -/
theorem State.SameWorkBelowCount.frameChars (h : s.SameWorkBelowCount w) (x : List Host.Cell) (f : Format) :
    ∃ (e : FramerEnd) (x' y' : List Host.Cell), s.frameChars f = e.withText x' ∧
      (s.withBuffers w x).frameChars f = e.withText y' ∧ Memory.SameBelow e.vars.nd x' y' := by
  obtain ⟨e, x', y', hs, hb, htext⟩ := framerLoop_withText (bit := s.workBit) (n := s.count.toNat) (f := f)
    (framerFuel s.count.toNat s.sspos.toNat f) s.framerStart (x := s.text) (y := x) (fun _ ha => absurd ha (Nat.not_lt_zero _))
  exact ⟨e, x', y', hs, (framerLoop_congr h _ _).trans hb, htext⟩

theorem execDecodeChars_withBuffers (h : execDecodeChars s = .next t) (hwork : s.SameWorkBelowCount w) :
    NextUpToBuffers t (execDecodeChars (s.withBuffers w x)) := by
  obtain ⟨f, hf, h⟩ := State.withFormat_next h
  obtain ⟨e, x', y', hs, hb, htext⟩ := hwork.frameChars x f
  rw [execDecodeChars, State.withFormat_some (s := s.withBuffers w x) hf, hb]
  rw [hs] at h
  cases e with
  | failed why r =>
    cases h
    exact ⟨w, y', rfl, trivial⟩
  | ended r =>
    cases h
    have hle : (BitVec.ofNat 16 r.nd).toNat ≤ r.nd := Nat.mod_le _ _
    exact ⟨w, y', rfl, hwork, fun n hn => htext n (hn.trans_le hle)⟩

/-- The LRC frame lies below COUNT (45_lrc_engine.md R163). -/
theorem State.SameWorkBelowCount.lrcObserved (h : s.SameWorkBelowCount w) (x : List Host.Cell) (f : Format) :
    (s.withBuffers w x).lrcObserved f = s.lrcObserved f := by
  have hpresent : (s.withBuffers w x).lrcPresent f = s.lrcPresent f := rfl
  unfold State.lrcObserved
  rw [hpresent]
  split
  next hfits =>
    have hfits : s.endpos.toNat + f.width ≤ s.count.toNat := of_decide_eq_true hfits
    exact frame_congr fun k hk => h (s.endpos.toNat + k) (by omega)
  next => rfl

theorem execLrcCheck_withBuffers (h : execLrcCheck s = .next t)
    (hlive : s.SameWorkBelowCount w ∧ Memory.SameBelow s.ndata.toNat s.text x) :
    NextUpToBuffers t (execLrcCheck (s.withBuffers w x)) := by
  obtain ⟨f, hf, -⟩ := State.withFormat_next h
  obtain ⟨hwork, htext⟩ := hlive
  rw [execLrcCheck_eq hf] at h
  cases h
  refine ⟨w, x, ?_, htext⟩
  rw [execLrcCheck_eq (s := s.withBuffers w x) hf, State.lrcMatch, hwork.lrcObserved]
  rfl

/-- PUBLISH makes NDATA the LENGTH below which TEXT is shown (46_sequencer.md R174). -/
theorem execPublish_withBuffers (h : execPublish s = .next t) (htext : Memory.SameBelow s.ndata.toNat s.text x) :
    NextUpToBuffers t (execPublish (s.withBuffers w x)) := by
  cases h
  exact ⟨w, x, rfl, htext⟩

/-- The stage that STATUS.STATE selects reads of WORK and TEXT only what the agreement covers, and passes the agreement on. -/
theorem exec_stage_withBuffers {i : Instr} (hd : decodeStage s.seq.code = .ok i) (h : exec i s = .next t)
    (hlive : s.SameLiveBuffers w x) : NextUpToBuffers t (exec i (s.withBuffers w x)) := by
  unfold State.SameLiveBuffers at hlive
  cases hseq : s.seq <;> rw [hseq] at hd hlive <;> cases hd
  case accepted => exact execDetect_withBuffers h
  case directionDetected => exact execNormloc_withBuffers h
  case sentinelFound => exact execDecodeChars_withBuffers h hlive
  case charactersDecoded => exact execLrcCheck_withBuffers h hlive
  case checksumChecked => exact execPublish_withBuffers h hlive

/-! ## The run and what its end shows -/

theorem engineRun_withBuffers {k : Nat} (h : engineRun k s = .next t) (hlive : s.SameLiveBuffers w x) :
    NextUpToBuffers t (engineRun k (s.withBuffers w x)) := by
  induction k generalizing s w x with
  | zero =>
    cases h
    exact ⟨w, x, rfl, hlive⟩
  | succ k ih =>
    rcases engineRun_succ_cases h with ⟨rfl, e, hd⟩ | ⟨i, u, hd, hi, hrun⟩
    · exact ⟨w, x, engineRun_succ_error (s := t.withBuffers w x) hd k, hlive⟩
    · obtain ⟨w', x', hi', hlive'⟩ := exec_stage_withBuffers hd hi hlive
      rw [engineRun_succ_ok (s := s.withBuffers w x) hd hi']
      exact ih hrun hlive'

theorem State.SameLiveBuffers.observe_text (h : s.SameLiveBuffers w x) :
    (s.withBuffers w x).observe.text = s.observe.text := by
  by_cases hdone : s.seq = .done
  · have htext : Memory.SameBelow s.length.toNat s.text x := by simpa only [State.SameLiveBuffers, hdone] using h
    refine (if_pos hdone).trans (Eq.trans ?_ (if_pos hdone).symm)
    exact List.map_congr_left fun n hn => congrArg (Option.getD · _) (htext n (List.mem_range.1 hn))
  · exact (if_neg hdone).trans (if_neg hdone).symm

/-- An observation shows of WORK nothing and of TEXT what is still to be read. -/
theorem State.SameLiveBuffers.observe (h : s.SameLiveBuffers w x) : (s.withBuffers w x).observe = s.observe :=
  congrArg (fun text => { s.observe with text := text }) h.observe_text

/-! ## A second acceptance -/

/-- Acceptance clears all that the ENGINE wrote but WORK and TEXT (47_host_commands.md R190). -/
theorem State.accept_eq_withBuffers {k : TrackCode} (h : t.outside = (s.accept k).outside) :
    t.accept k = (s.accept k).withBuffers t.work t.text :=
  (congrArg (fun u : State => (u.accept k).withBuffers t.work t.text) h :)

end WithBuffers

/-- Settles O53: the state accepted again differs from the state accepted first in WORK and TEXT alone, and a call just accepted
reads neither before it writes it. -/
theorem secondDecodeGivesTheSameResult : Obligations.SecondDecodeGivesTheSameResult := by
  intro s t k _ hrun
  have hout := engineRun_outside hrun
  obtain ⟨w, x, hagain, hlive⟩ := engineRun_withBuffers (w := t.work) (x := t.text) hrun trivial
  rw [← State.accept_eq_withBuffers hout] at hagain
  exact ⟨(congrArg State.raw hout :), (congrArg State.count hout :), _, hagain, hlive.observe⟩

end Sys2Proof.Machine

/-! PROOFS. REVERSE on bit sequences and on streams of frames (42_bit_reversal.md R124). -/

namespace Sys2Proof.Machine

/-! ## REVERSE as the reversal of a list -/

theorem reverseBits_eq_reverse (bit : Nat → Bool) (n : Nat) : reverseBits bit n = (bitsOf bit n).reverse :=
  List.ext_getElem (by simp) fun i _ _ => by simp [reverseBits, bitsOf]

theorem bitsOf_getD (bits : List Bool) : bitsOf (fun i => bits.getD i false) bits.length = bits :=
  bitsOf_eq_of_getElem fun j hj => by simp [hj]

theorem reverseBits_getD (bits : List Bool) : reverseBits (fun i => bits.getD i false) bits.length = bits.reverse := by
  rw [reverseBits_eq_reverse, bitsOf_getD]

/-- The definition of REVERSE read at one index (R121). -/
theorem getD_reverseBits {n i : Nat} (bit : Nat → Bool) (h : i < n) :
    (reverseBits bit n).getD i false = bit (n - 1 - i) := by simp [reverseBits, h]

/-! ## The parity of a frame is the parity of its bits (00_scope.md R10) -/

/-- A frame is its first bit below the frame of the rest. -/
theorem frameSum_succ (bit : Nat → Bool) (p W : Nat) :
    frameSum bit p (W + 1) = Nat.bit (bit p) (frameSum bit (p + 1) W) := by
  have hshift : ∀ k, (bit (p + (k + 1))).toNat <<< (k + 1) = 2 * (bit (p + 1 + k)).toNat <<< k := fun k => by
    rw [Nat.shiftLeft_succ, Nat.add_right_comm, Nat.add_assoc]
  simp [frameSum, List.range_succ_eq_map, Function.comp_def, hshift, List.sum_map_mul_left, Nat.bit_val, Nat.add_comm]

theorem testBit_frameSum (bit : Nat → Bool) (p W i : Nat) :
    (frameSum bit p W).testBit i = (decide (i < W) && bit (p + i)) := by
  induction W generalizing p i with
  | zero => simp [frameSum]
  | succ W ih =>
    rw [frameSum_succ]
    cases i with
    | zero => simp
    | succ i => simp [Nat.testBit_bit_succ, ih, Nat.add_comm, Nat.add_left_comm]

theorem getLsbD_frame (bit : Nat → Bool) (p : Nat) {W i : Nat} (hW : W ≤ 7) (hi : i < W) :
    (frame bit p W).getLsbD i = bit (p + i) := by
  rw [frame, BitVec.getLsbD_ofNat, testBit_frameSum]
  simp [hi, hi.trans_le hW]

theorem popcount_frame (bit : Nat → Bool) (p : Nat) {W : Nat} (hW : W ≤ 7) :
    popcount ((frame bit p W).setWidth W) = (bitsOf (fun i => bit (p + i)) W).count true := by
  rw [popcount, bitsOf, List.count, List.countP_map]
  refine List.countP_congr fun i hi => ?_
  have hi : i < W := List.mem_range.1 hi
  rw [BitVec.getLsbD_setWidth, getLsbD_frame bit p hW hi]
  simp [hi]

theorem oddParity_frame (bit : Nat → Bool) (p : Nat) {W : Nat} (hW : W ≤ 7) :
    oddParity (frame bit p W) W = bitsOdd (bitsOf (fun i => bit (p + i)) W) := by
  rw [oddParity, popcount_frame bit p hW, bitsOdd]

theorem bitsOdd_reverse (bits : List Bool) : bitsOdd bits.reverse = bitsOdd bits := by
  rw [bitsOdd, List.count_reverse, bitsOdd]

/-! ## REVERSE of a stream of k frames -/

/-- Bit q of frame j of the reversed stream is bit W - 1 - q of frame k - 1 - j (R124 item 3). -/
theorem getD_reverseBits_frames (bit : Nat → Bool) {W k j q : Nat} (hj : j < k) (hq : q < W) :
    (reverseBits bit (k * W)).getD (j * W + q) false = bit ((k - 1 - j) * W + (W - 1 - q)) := by
  obtain ⟨m, rfl⟩ : ∃ m, k = m + j + 1 := ⟨k - 1 - j, by omega⟩
  have hlen : (m + j + 1) * W = m * W + j * W + W := by ring
  rw [getD_reverseBits bit (by omega), show m + j + 1 - 1 - j = m by omega]
  congr 1
  omega

theorem bitsOf_reversed_frame (bit : Nat → Bool) {W k j : Nat} (hj : j < k) :
    bitsOf (fun q => (reverseBits bit (k * W)).getD (j * W + q) false) W =
      (bitsOf (fun q => bit ((k - 1 - j) * W + q)) W).reverse := by
  rw [← reverseBits_eq_reverse]
  exact List.map_congr_left fun q hq => getD_reverseBits_frames bit hj (List.mem_range.1 hq)

/-- Settles O10: REVERSE reverses the list of bits (items 1 and 2), and with a stream each of its frames (items 3 and 4). -/
theorem reversalInvolutesAndReversesFrames : Obligations.ReversalInvolutesAndReversesFrames := by
  refine ⟨fun b => ?_, fun bit W k j hW hj => ⟨fun q hq => getD_reverseBits_frames bit hj hq, ?_⟩⟩
  · dsimp only
    rw [reverseBits_getD, ← List.length_reverse, reverseBits_getD]
    exact ⟨List.reverse_reverse b, List.count_reverse⟩
  · rw [oddParity_frame _ _ hW, oddParity_frame _ _ hW, bitsOf_reversed_frame bit hj, bitsOdd_reverse]

end Sys2Proof.Machine

/-! PROOFS. No stage reads WORK at or above COUNT (42_bit_reversal.md R125). Each stage is followed through a replacement of
WORK that agrees below COUNT: it answers the same next state, but for a WORK that agrees below COUNT again. -/

namespace Sys2Proof.Machine

/-- The outcome is the next state t but for its WORK, which agrees with t's below COUNT. -/
def NextUpToWork (t : State) (r : Result) : Prop := ∃ w, r = .next { t with work := w } ∧ t.SameWorkBelowCount w

section WorkReplaced
variable {w : List (Nat × Bool)} {s t : State}

/-- DETECT writes WORK below COUNT before it reads it, so it needs no agreement before. -/
theorem execDetect_nextUpToWork (h : execDetect s = .next t) : NextUpToWork t (execDetect { s with work := w }) := by
  obtain ⟨f, hf, h⟩ := State.withFormat_next h
  have hfwd : State.locateInWork (State.copyRaw { s with work := w }) f = s.copyRaw.locateInWork f :=
    (s.copyRaw_sameWork w).locateInWork s.text f
  have hback : State.locateInWork (State.copyRawReversed (State.copyRaw { s with work := w })) f =
      s.copyRaw.copyRawReversed.locateInWork f :=
    (s.copyRaw.copyRawReversed_sameWork _).locateInWork s.text f
  rw [execDetect, State.withFormat_some (s := { s with work := w }) hf, hfwd, hback]
  cases h1 : s.copyRaw.locateInWork f with
  | some p =>
    simp only [h1] at h
    cases h
    exact ⟨_, rfl, s.copyRaw_sameWork w⟩
  | none =>
    cases h2 : s.copyRaw.copyRawReversed.locateInWork f with
    | some | none =>
      simp only [h1, h2] at h
      cases h
      exact ⟨_, rfl, s.copyRaw.copyRawReversed_sameWork _⟩

/-- NORMLOC writes WORK below COUNT before it reads it. -/
theorem execNormloc_nextUpToWork (h : execNormloc s = .next t) : NextUpToWork t (execNormloc { s with work := w }) := by
  obtain ⟨f, hf, h⟩ := State.withFormat_next h
  obtain ⟨w', hnorm, hwork⟩ := s.withBuffers_normalize w s.text
  have hnorm : State.normalize { s with work := w } = s.normalize.withBuffers w' s.text := hnorm
  rw [execNormloc, State.withFormat_some (s := { s with work := w }) hf, hnorm, hwork.locateInWork, ← s.normalize_text]
  cases hp : s.normalize.locateInWork f <;> simp only [hp] at h <;> cases h
  exact ⟨w', rfl, hwork⟩

/-- The passes of DECODE_CHARS read WORK below COUNT alone. -/
theorem execDecodeChars_nextUpToWork (hwork : s.SameWorkBelowCount w) (h : execDecodeChars s = .next t) :
    NextUpToWork t (execDecodeChars { s with work := w }) := by
  obtain ⟨f, hf, h⟩ := State.withFormat_next h
  have hchars : State.frameChars { s with work := w } f = s.frameChars f := framerLoop_congr hwork _ _
  rw [execDecodeChars, State.withFormat_some (s := { s with work := w }) hf, hchars]
  cases he : s.frameChars f <;> simp only [he] at h <;> cases h
  all_goals exact ⟨w, rfl, hwork⟩

/-- The LRC frame lies below COUNT (45_lrc_engine.md R163). -/
theorem execLrcCheck_nextUpToWork (hwork : s.SameWorkBelowCount w) (h : execLrcCheck s = .next t) :
    NextUpToWork t (execLrcCheck { s with work := w }) := by
  obtain ⟨f, hf, -⟩ := State.withFormat_next h
  have hobs : State.lrcObserved { s with work := w } f = s.lrcObserved f := hwork.lrcObserved s.text f
  rw [execLrcCheck_eq hf] at h
  cases h
  refine ⟨w, ?_, hwork⟩
  rw [execLrcCheck_eq (s := { s with work := w }) hf, State.lrcMatch, hobs]
  rfl

theorem exec_stage_nextUpToWork {i : Instr} (hi : hostInstr i = false) (hwork : s.SameWorkBelowCount w)
    (h : exec i s = .next t) : NextUpToWork t (exec i { s with work := w }) := by
  cases i with
  | detect => exact execDetect_nextUpToWork h
  | normloc => exact execNormloc_nextUpToWork h
  | decodeChars => exact execDecodeChars_nextUpToWork hwork h
  | lrcCheck => exact execLrcCheck_nextUpToWork hwork h
  | publish =>
    cases h
    exact ⟨w, rfl, hwork⟩
  | rdCmd | rdStatus | rdCount | rdLength | rdErridx | rdSspos | rdEndpos | rdLrc | decodeT1 | decodeT2 | decodeT3
    | wrCount | wrRaw | rdRaw | rdText => cases hi

end WorkReplaced

/-- Settles O55: the outcome under the replacement is the given one up to WORK, and a stage leaves COUNT as it is. -/
theorem engineIgnoresWorkAboveCount : Obligations.EngineIgnoresWorkAboveCount := by
  intro s t i w hi hw ht
  have hcount : t.count = s.count := (congrArg State.count (exec_stage_outside hi ht) :)
  obtain ⟨w', ht', hwork⟩ := exec_stage_nextUpToWork hi hw ht
  exact ⟨_, ht', rfl, fun j hj => hwork j (hcount ▸ hj)⟩

end Sys2Proof.Machine

/-! PROOFS. NORMALIZE and LOCATE in the stage NORMLOC, alone and after DETECT (43_sentinel_locator.md R131 to R136). -/

namespace Sys2Proof.Machine

/-! ## The window test as an equation (R132) -/

theorem sentinelAt_iff {bit : Nat → Bool} {f : Format} {p : Nat} :
    sentinelAt bit f p = true ↔ dataField (frame bit p f.width) f.dataBits = f.ss := beq_iff_eq

theorem not_sentinelAt_iff {bit : Nat → Bool} {f : Format} {p : Nat} :
    sentinelAt bit f p = false ↔ dataField (frame bit p f.width) f.dataBits ≠ f.ss := beq_eq_false_iff_ne

/-! ## NORMALIZE in terms of RAW (42_bit_reversal.md R122) -/

/-- Bit i of the normalized sequence, for i below COUNT. -/
def State.normalizedBit (s : State) (i : Nat) : Bool :=
  if s.dir = .backward then s.rawBit (s.count.toNat - 1 - i) else s.rawBit i

theorem State.normalizedBit_backward {s : State} (h : s.dir = .backward) :
    s.normalizedBit = fun i => s.rawBit (s.count.toNat - 1 - i) := funext fun _ => if_pos h

theorem State.normalizedBit_not_backward {s : State} (h : s.dir ≠ .backward) : s.normalizedBit = s.rawBit :=
  funext fun _ => if_neg h

/-- NORMALIZE is one of the two copies. -/
theorem State.normalize_cases (s : State) :
    (s.dir = .backward ∧ s.normalize = s.copyRawReversed) ∨ (s.dir ≠ .backward ∧ s.normalize = s.copyRaw) := by
  cases h : s.dir with
  | backward => exact .inl ⟨rfl, by rw [State.normalize, h]⟩
  | forward | unknown => exact .inr ⟨nofun, by rw [State.normalize, h]⟩

theorem State.normalize_eq (s : State) : s.normalize = { s with work := s.normalize.work } := by
  rcases s.normalize_cases with ⟨_, h⟩ | ⟨_, h⟩ <;> rw [h] <;> rfl

theorem State.normalize_workBit (s : State) {i : Nat} (hi : i < s.count.toNat) :
    s.normalize.workBit i = s.normalizedBit i := by
  rcases s.normalize_cases with ⟨hdir, h⟩ | ⟨hdir, h⟩
  · rw [h, State.normalizedBit_backward hdir, s.copyRawReversed_workBit hi]
  · rw [h, State.normalizedBit_not_backward hdir, s.copyRaw_workBit hi]

theorem State.normalize_workBit_above (s : State) {i : Nat} (hi : s.count.toNat ≤ i) :
    s.normalize.workBit i = s.workBit i := by
  rcases s.normalize_cases with ⟨_, h⟩ | ⟨_, h⟩
  · rw [h, s.copyRawReversed_workBit_above hi]
  · rw [h, s.copyRaw_workBit_above hi]

theorem State.normalize_locate (s : State) (f : Format) :
    s.normalize.locateInWork f = locate s.normalizedBit s.count.toNat f := by
  rw [State.locateInWork, s.normalize_count]
  exact locate_congr fun _ => s.normalize_workBit

/-! ## NORMLOC's two outcomes in terms of RAW (R135, R136) -/

section Normloc
variable {s : State} {f : Format} {p : Nat}

theorem execNormloc_of_found (hf : s.trk.format = some f) (hp : locate s.normalizedBit s.count.toNat f = some p) :
    execNormloc s = .next (s.normalize.located p) := by
  rw [← s.normalize_locate] at hp
  rcases execNormloc_cases hf with ⟨q, hq, h⟩ | ⟨hq, _⟩
  · rw [hp] at hq
    cases hq
    exact h
  · rw [hp] at hq
    cases hq

/-- The fault of R136 is NOTFOUND. -/
theorem execNormloc_eq_sentinelLost_iff (hf : s.trk.format = some f) :
    execNormloc s = .fault .sentinelLost ↔ locate s.normalizedBit s.count.toNat f = none := by
  rw [← s.normalize_locate]
  rcases execNormloc_cases hf with ⟨p, hp, h⟩ | ⟨hp, h⟩ <;> simp [hp, h]

/-- An offset that LOCATE answers fits in SSPOS: its window lies below COUNT (R131). -/
theorem State.located_sspos_toNat {bit : Nat → Bool} {n : Reg} (s : State) (hp : locate bit n.toNat f = some p) :
    (s.located p).sspos.toNat = p :=
  (BitVec.toNat_ofNat p 16).trans (Nat.mod_eq_of_lt ((Nat.le_of_add_right_le (locate_lt hp)).trans_lt n.isLt))

end Normloc

/-- Settles O12: LOCATE's answer on the normalized bits is the leftmost window, and its offset fits in SSPOS. -/
theorem normlocWritesTheLeftmostSentinelOffset : Obligations.NormlocWritesTheLeftmostSentinelOffset := by
  intro s f hf n bit hit ⟨w, hw, hhit⟩
  cases hp : locate s.normalizedBit n f with
  | none => exact absurd hhit (not_sentinelAt_iff.1 (locate_eq_none.1 hp w hw))
  | some p =>
    obtain ⟨hwhole, hat, hleft⟩ := locate_eq_some.1 hp
    have hpos : (s.normalize.located p).sspos.toNat = p := State.located_sspos_toNat _ hp
    have hframe : s.normalize.located p =
        { s with work := s.normalize.work, sspos := BitVec.ofNat 16 p, seq := .sentinelFound } :=
      congrArg (State.located p) s.normalize_eq
    refine ⟨_, execNormloc_of_found hf hp, hframe, ?_⟩
    rw [hpos]
    exact ⟨hwhole, sentinelAt_iff.1 hat, fun q hq => not_sentinelAt_iff.1 (hleft q hq),
      fun _ => s.normalize_workBit, fun _ => s.normalize_workBit_above⟩

/-- Settles O13: NOTFOUND on the normalized bits means that no whole window matches. -/
theorem normlocFaultsOnlyWithoutASentinel : Obligations.NormlocFaultsOnlyWithoutASentinel := fun _ _ hf =>
  (execNormloc_eq_sentinelLost_iff hf).trans (locate_eq_none.trans (forall₂_congr fun _ _ => not_sentinelAt_iff))

/-! ## NORMLOC after DETECT (R136) -/

/-- A successful DETECT leaves in WORK the sequence that its DIR normalizes RAW to, and a sentinel in it. -/
theorem execDetect_leaves_normalized {s t : State} {f : Format} (hf : s.trk.format = some f) (h : execDetect s = .next t)
    (hseq : t.seq = .directionDetected) :
    t.trk = s.trk ∧ (∃ p, locate t.normalizedBit t.count.toNat f = some p) ∧
      ∀ i, i < t.count.toNat → t.workBit i = t.normalizedBit i := by
  rcases execDetect_cases hf with ⟨p, hp, e⟩ | ⟨_, p, hp, e⟩ | ⟨_, _, e⟩ <;> rw [e] at h <;> cases h
  · have hbit : (s.copyRaw.detected .forward).normalizedBit = s.rawBit := State.normalizedBit_not_backward nofun
    rw [hbit]
    exact ⟨rfl, ⟨p, hp⟩, fun _ => s.copyRaw_workBit⟩
  · have hbit : (s.copyRaw.copyRawReversed.detected .backward).normalizedBit =
        fun i => s.rawBit (s.count.toNat - 1 - i) := State.normalizedBit_backward rfl
    rw [hbit]
    exact ⟨rfl, ⟨p, hp⟩, fun _ => s.copyRaw_copyRawReversed_workBit⟩
  · cases hseq

/-- Normalizing again a WORK that holds the normalized sequence changes no bit of it. -/
theorem State.normalize_workBit_of_normalized {s : State}
    (h : ∀ i, i < s.count.toNat → s.workBit i = s.normalizedBit i) (i : Nat) : s.normalize.workBit i = s.workBit i := by
  rcases lt_or_ge i s.count.toNat with hi | hi
  · rw [s.normalize_workBit hi, h i hi]
  · exact s.normalize_workBit_above hi

/-- Settles O14: DETECT leaves the normalized sequence in WORK, so NORMLOC writes the same bits again and finds the sentinel. -/
theorem normlocAfterDetectFindsTheSameOffset : Obligations.NormlocAfterDetectFindsTheSameOffset := by
  intro s t h hseq
  obtain ⟨f, hf, -⟩ := State.withFormat_next h
  obtain ⟨htrk, ⟨p, hp⟩, hwork⟩ := execDetect_leaves_normalized hf h hseq
  have hnext : execNormloc t = .next (t.normalize.located p) := execNormloc_of_found (htrk ▸ hf) hp
  refine ⟨f, _, hf, hnext, rfl, ?_, State.normalize_workBit_of_normalized hwork⟩
  rw [State.located_sspos_toNat _ hp, locate_congr hwork, hp]

end Sys2Proof.Machine

/-! PROOFS. The parity of a bit sequence: one flipped bit changes it (44_character_framer.md R142), and the parity bit of a
character makes it odd (30_encoding.md R84 to R86). -/

namespace Sys2Proof.Machine

/-! ## The parity of a bit sequence, bit by bit -/

theorem bitsOdd_concat (bits : List Bool) (b : Bool) : bitsOdd (bits ++ [b]) = (bitsOdd bits ^^ b) := by
  cases b with
  | false => simp [bitsOdd]
  | true => rcases Nat.mod_two_eq_zero_or_one (bits.count true) with h | h <;> simp [bitsOdd, Nat.add_mod, h]

theorem bitsOf_succ (bit : Nat → Bool) (n : Nat) : bitsOf bit (n + 1) = bitsOf bit n ++ [bit n] := by
  simp [bitsOf, List.range_succ]

theorem bitsOdd_bitsOf_succ (bit : Nat → Bool) (n : Nat) :
    bitsOdd (bitsOf bit (n + 1)) = (bitsOdd (bitsOf bit n) ^^ bit n) := by
  rw [bitsOf_succ, bitsOdd_concat]

theorem bitsOf_congr {bit bit' : Nat → Bool} {n : Nat} (h : ∀ i, i < n → bit' i = bit i) :
    bitsOf bit' n = bitsOf bit n :=
  List.map_congr_left fun i hi => h i (List.mem_range.1 hi)

/-- Flipping one bit of a sequence flips its parity. -/
theorem bitsOdd_bitsOf_flip {bit bit' : Nat → Bool} {n k : Nat} (hk : k < n) (hflip : bit' k = !bit k)
    (hother : ∀ i, i < n → i ≠ k → bit' i = bit i) : bitsOdd (bitsOf bit' n) = !bitsOdd (bitsOf bit n) := by
  induction n with
  | zero => omega
  | succ n ih =>
    rw [bitsOdd_bitsOf_succ, bitsOdd_bitsOf_succ]
    by_cases hlast : k = n
    · subst hlast
      rw [bitsOf_congr fun i hi => hother i (by omega) (by omega), hflip, Bool.xor_not]
    · rw [ih (by omega) fun i hi => hother i (by omega), hother n (by omega) (by omega), Bool.not_xor]

/-- Bits that are 0 above a bound do not count in the parity. -/
theorem bitsOdd_bitsOf_of_clear_above {bit : Nat → Bool} {m n : Nat} (hmn : m ≤ n) (hclear : ∀ i, m ≤ i → bit i = false) :
    bitsOdd (bitsOf bit n) = bitsOdd (bitsOf bit m) := by
  induction n, hmn using Nat.le_induction with
  | base => rfl
  | succ n hmn ih => rw [bitsOdd_bitsOf_succ, hclear n hmn, Bool.xor_false, ih]

/-! ## The parity tests of the framer and of ODDBIT (00_scope.md R10) -/

theorem popcount_eq_count {n : Nat} (v : BitVec n) : popcount v = (bitsOf v.getLsbD n).count true := by
  rw [popcount, bitsOf, List.count, List.countP_map]
  exact List.countP_congr fun _ _ => by simp

theorem oddParity_eq_bitsOdd (c : Frame) (W : Nat) : oddParity c W = bitsOdd (bitsOf c.getLsbD W) := by
  rw [oddParity, popcount_eq_count, bitsOf_congr fun i hi => by rw [BitVec.getLsbD_setWidth, decide_eq_true hi, Bool.true_and],
    bitsOdd]

theorem oddBit_eq_not_bitsOdd (x : DataVal) : oddBit x = !bitsOdd (bitsOf x.getLsbD 6) := by
  rw [oddBit, popcount_eq_count, bitsOdd]
  rcases Nat.mod_two_eq_zero_or_one ((bitsOf x.getLsbD 6).count true) with h | h <;> rw [h] <;> rfl

/-! ## Flipping bits of a frame (R142) -/

theorem getLsbD_flip (c : Frame) {i k : Nat} (hi : i < 7) : (c ^^^ (1 <<< k)).getLsbD i = (c.getLsbD i ^^ decide (i = k)) := by
  rw [BitVec.getLsbD_xor, BitVec.natCast_eq_ofNat, BitVec.getLsbD_ofNat, Nat.one_shiftLeft, Nat.testBit_two_pow,
    decide_eq_true hi, Bool.true_and, decide_eq_decide.2 eq_comm]

theorem oddParity_flip (c : Frame) {W k : Nat} (hW : W ≤ 7) (hk : k < W) : oddParity (c ^^^ (1 <<< k)) W = !oddParity c W := by
  rw [oddParity_eq_bitsOdd, oddParity_eq_bitsOdd]
  refine bitsOdd_bitsOf_flip hk ?_ fun i hi hne => ?_
  · rw [getLsbD_flip c (hk.trans_le hW), decide_eq_true rfl, Bool.xor_true]
  · rw [getLsbD_flip c (hi.trans_le hW), decide_eq_false hne, Bool.xor_false]

/-- Settles O7: a flip negates the parity test, so two flips leave it. -/
theorem oneFlipChangesParityTwoKeepIt : Obligations.OneFlipChangesParityTwoKeepIt := fun c W j k hW hj hk =>
  ⟨oddParity_flip c hW hk, fun _ => by rw [oddParity_flip _ hW hj, oddParity_flip c hW hk, Bool.not_not]⟩

/-! ## The character of a data value (30_encoding.md R84 to R86) -/

theorem length_sourceChar (f : Format) (v : Nat) : (sourceChar f v).length = f.width := by
  simp [sourceChar, f.width_eq]

/-- The parity bit makes the character odd. -/
theorem bitsOdd_sourceChar (f : Format) (v : Nat) : bitsOdd (sourceChar f v) = true := by
  rw [sourceChar, bitsOdd_concat, Bool.xor_not_self]

theorem getD_sourceChar_data {f : Format} {k : Nat} (v : Nat) (hk : k < f.dataBits) :
    (sourceChar f v).getD k false = v.testBit k := by
  have hlen : k < ((List.range f.dataBits).map v.testBit).length := by simpa using hk
  rw [sourceChar, List.getD_append _ _ _ _ hlen]
  simp [hk]

theorem getD_sourceChar_parity (f : Format) (v : Nat) :
    (sourceChar f v).getD f.dataBits false = !bitsOdd (bitsOf v.testBit f.dataBits) := by
  simp [sourceChar, bitsOf]

/-- The character of a data value as a frame. -/
def charOf (f : Format) (v : Nat) : Frame := frame (fun k => (sourceChar f v).getD k false) 0 f.width

theorem getLsbD_charOf {f : Format} {k : Nat} (v : Nat) (hk : k < f.width) :
    (charOf f v).getLsbD k = (sourceChar f v).getD k false := by
  rw [charOf, getLsbD_frame _ _ f.width_le hk, Nat.zero_add]

theorem oddParity_charOf (f : Format) (v : Nat) : oddParity (charOf f v) f.width = true := by
  have hbits : bitsOf (fun k => (sourceChar f v).getD (0 + k) false) f.width = sourceChar f v := by
    simpa [length_sourceChar] using bitsOf_getD (sourceChar f v)
  rw [charOf, oddParity_frame _ _ f.width_le, hbits, bitsOdd_sourceChar]

/-- A data value of the format has no bit at D or above. -/
theorem getLsbD_eq_false_of_lt {f : Format} {v : DataVal} (hv : v.toNat < 2 ^ f.dataBits) {i : Nat} (hi : f.dataBits ≤ i) :
    v.getLsbD i = false :=
  Nat.testBit_lt_two_pow (hv.trans_le (Nat.pow_le_pow_right two_pos hi))

theorem dataField_charOf {f : Format} {v : DataVal} (hv : v.toNat < 2 ^ f.dataBits) :
    dataField (charOf f v.toNat) f.dataBits = v := by
  refine BitVec.eq_of_getLsbD_eq fun i hi => ?_
  rw [dataField, BitVec.getLsbD_setWidth, BitVec.getLsbD_setWidth, decide_eq_true hi, Bool.true_and]
  by_cases hd : i < f.dataBits
  · rw [decide_eq_true hd, Bool.true_and, getLsbD_charOf _ (by rw [f.width_eq]; omega), getD_sourceChar_data _ hd]
    rfl
  · rw [decide_eq_false hd, Bool.false_and, getLsbD_eq_false_of_lt hv (by omega)]

theorem parityBit_charOf {f : Format} {v : DataVal} (hv : v.toNat < 2 ^ f.dataBits) :
    parityBit (charOf f v.toNat) f.dataBits = oddBit v := by
  have hd : f.dataBits ≤ 6 := by cases f <;> decide
  rw [parityBit, getLsbD_charOf _ (by rw [f.width_eq]; omega), getD_sourceChar_parity, oddBit_eq_not_bitsOdd,
    bitsOdd_bitsOf_of_clear_above hd fun _ => getLsbD_eq_false_of_lt hv]
  rfl

/-- The sum of R143 has no carry: the value is below 64 and OFF at most 0x30. -/
theorem toNat_asciiByte (f : Format) (v : DataVal) : (asciiByte f v).toNat = v.toNat + f.off.toNat := by
  have hoff : f.off.toNat ≤ 48 := by cases f <;> decide
  rw [asciiByte, BitVec.toNat_add, BitVec.toNat_setWidth]
  omega

/-- Settles O9: the character's bits, and the sum of R143. -/
theorem characterCodeOfEveryDataValue : Obligations.CharacterCodeOfEveryDataValue := by
  intro f v hv
  refine ⟨oddParity_charOf f _, dataField_charOf hv, parityBit_charOf hv, toNat_asciiByte f v, ?_⟩
  rw [toNat_asciiByte]
  cases f with
  | sixBit => exact Nat.add_le_add_right (Nat.le_of_lt_succ hv) 0x20
  | fourBit => exact Nat.add_le_add_right (Nat.le_of_lt_succ hv) 0x30

end Sys2Proof.Machine

/-! PROOFS. DECODE_CHARS by character index: the loop variables at each index, the index where the loop ends, and the three ways
it ends there (44_character_framer.md R146 to R152). -/

namespace Sys2Proof.Machine

/-- A write after a sequence is the sequence with one more value. -/
theorem Memory.writeFrom_concat {α : Type} (m : List (Nat × α)) (a : Nat) (vs : List α) (v : α) :
    Memory.writeFrom m a (vs ++ [v]) = Memory.write (Memory.writeFrom m a vs) (a + vs.length) v := by
  induction vs generalizing m a with
  | nil => rfl
  | cons w vs ih =>
    rw [List.cons_append, Memory.writeFrom, ih, Memory.writeFrom, List.length_cons, Nat.add_right_comm, Nat.add_assoc]

section Chars
variable {s : State} {f : Format} {j k : Nat}

/-! ## The loop variables at a character index (R150) -/

/-- The ASCII bytes of the data characters at indices 1 to n (R143). -/
def State.charBytes (s : State) (f : Format) (n : Nat) : List Byte :=
  (List.range n).map fun i => asciiByte f (s.charValue f (i + 1))

@[simp] theorem State.length_charBytes (s : State) (f : Format) (n : Nat) : (s.charBytes f n).length = n := by
  simp [State.charBytes]

theorem State.charBytes_succ (s : State) (f : Format) (n : Nat) :
    s.charBytes f (n + 1) = s.charBytes f n ++ [asciiByte f (s.charValue f (n + 1))] := by
  simp [State.charBytes, List.range_succ]

/-- The loop variables of DECODE_CHARS at character index k, when all frames before it are passed. -/
def State.framerAt (s : State) (f : Format) (k : Nat) : FramerVars where
  cur := s.sspos.toNat + k * f.width
  idx := k
  nd := k - 1
  acc := s.xorOfChars f (k - 1)
  text := Memory.writeFrom s.text 0 (s.charBytes f (k - 1))

theorem State.framerAt_zero (s : State) (f : Format) : s.framerAt f 0 = s.framerStart := by
  simp [State.framerAt, State.framerStart, State.xorOfChars, State.charBytes, Memory.writeFrom]

theorem State.framerAt_one (s : State) (f : Format) :
    s.framerAt f 1 = { s.framerAt f 0 with cur := (s.framerAt f 0).cur + f.width, idx := 1 } := by
  simp [State.framerAt]

/-- From index k + 1 on, passing a frame stores its byte and adds its value to ACC (R146). -/
theorem State.framerAt_succ (s : State) (f : Format) (k : Nat) :
    s.framerAt f (k + 2) =
      { cur := (s.framerAt f (k + 1)).cur + f.width, idx := k + 2, nd := k + 1,
        acc := s.xorOfChars f k ^^^ s.charValue f (k + 1),
        text := Memory.write (s.framerAt f (k + 1)).text k (asciiByte f (s.charValue f (k + 1))) } := by
  have hcur : s.sspos.toNat + (k + 2) * f.width = s.sspos.toNat + (k + 1) * f.width + f.width := by ring
  simp [State.framerAt, State.charBytes_succ, Memory.writeFrom_concat, State.xorOfChars, hcur]

/-- The frame at the cursor lies within COUNT when the frame of the index does. -/
theorem State.framerAt_fits_iff : (s.framerAt f k).cur + f.width ≤ s.count.toNat ↔ s.charFits f k := by
  rw [State.charFits, State.framerAt, Nat.succ_mul, Nat.add_assoc]

/-! ## The first frame that is not passed -/

/-- Where the loop ends at index j, and what it ends in. -/
def State.charsEnd (s : State) (f : Format) (j : Nat) (e : FramerEnd) : Prop :=
  (¬ s.charFits f j ∧ e = .failed .truncated (s.framerAt f j)) ∨
  (s.charFits f j ∧ oddParity (s.charFrame f j) f.width = false ∧ e = .failed .parityError (s.framerAt f j)) ∨
  (s.charFits f j ∧ oddParity (s.charFrame f j) f.width = true ∧ 1 ≤ j ∧ s.charValue f j = f.es ∧
    e = .ended (s.framerAt f j))

/-- A pass at index k passes the frame or ends the loop. -/
theorem framerPass_framerAt (s : State) (f : Format) (k : Nat) :
    (s.charPassed f k ∧ framerPass s.workBit s.count.toNat f (s.framerAt f k) = .more (s.framerAt f (k + 1))) ∨
    (∃ e, s.charsEnd f k e ∧ framerPass s.workBit s.count.toNat f (s.framerAt f k) = .stop e) := by
  rcases framerPass_cases s.workBit s.count.toNat f (s.framerAt f k) with ⟨hlen, h⟩ | ⟨hlen, heven, h⟩ |
    ⟨⟨hlen, hodd⟩, hidx, h⟩ | ⟨⟨hlen, hodd⟩, hidx, hes, h⟩ | ⟨⟨hlen, hodd⟩, hidx, hes, h⟩
  · exact .inr ⟨_, .inl ⟨mt State.framerAt_fits_iff.2 hlen.not_ge, rfl⟩, h⟩
  · exact .inr ⟨_, .inr (.inl ⟨State.framerAt_fits_iff.1 hlen, heven, rfl⟩), h⟩
  · obtain rfl : k = 0 := hidx
    exact .inl ⟨⟨State.framerAt_fits_iff.1 hlen, hodd, nofun⟩, by rw [h, s.framerAt_one]⟩
  · exact .inr ⟨_, .inr (.inr ⟨State.framerAt_fits_iff.1 hlen, hodd, Nat.pos_of_ne_zero hidx, hes, rfl⟩), h⟩
  · obtain ⟨m, rfl⟩ : ∃ m, k = m + 1 := Nat.exists_eq_succ_of_ne_zero hidx
    exact .inl ⟨⟨State.framerAt_fits_iff.1 hlen, hodd, fun _ => hes⟩, by rw [h, s.framerAt_succ]; rfl⟩

theorem State.charsEnd.not_passed {e : FramerEnd} (h : s.charsEnd f j e) : ¬ s.charPassed f j := by
  rintro ⟨hfits, hodd, hne⟩
  rcases h with ⟨hnot, _⟩ | ⟨_, heven, _⟩ | ⟨_, _, hj, hes, _⟩
  · exact hnot hfits
  · rw [hodd] at heven
    cases heven
  · exact hne hj hes

/-- The loop ends at some index, all frames before which are passed (R152). -/
theorem State.frameChars_end (s : State) (f : Format) :
    ∃ j, (∀ i, i < j → s.charPassed f i) ∧ s.charsEnd f j (s.frameChars f) := by
  obtain ⟨_, ⟨j, hpassed, rfl⟩, hstop⟩ := s.frameChars_ends (f := f)
    (P := fun r => ∃ k, (∀ i, i < k → s.charPassed f i) ∧ r = s.framerAt f k)
    ⟨0, fun _ hi => absurd hi (Nat.not_lt_zero _), (s.framerAt_zero f).symm⟩
    (by
      rintro _ r' ⟨k, hpassed, rfl⟩ hmore
      rcases framerPass_framerAt s f k with ⟨hk, h⟩ | ⟨e, _, h⟩ <;> rw [h] at hmore <;> cases hmore
      exact ⟨k + 1, fun i hi => (Nat.lt_succ_iff_lt_or_eq.1 hi).elim (hpassed i) (· ▸ hk), rfl⟩)
  rcases framerPass_framerAt s f j with ⟨_, h⟩ | ⟨e, hend, h⟩ <;> rw [h] at hstop <;> cases hstop
  exact ⟨j, hpassed, hend⟩

/-- The loop ends at the first index whose frame is not passed. -/
theorem State.frameChars_end_at (hpassed : ∀ i, i < j → s.charPassed f i) (hj : ¬ s.charPassed f j) :
    s.charsEnd f j (s.frameChars f) := by
  obtain ⟨k, hk, hend⟩ := s.frameChars_end f
  rcases lt_trichotomy j k with h | rfl | h
  · exact absurd (hk j h) hj
  · exact hend
  · exact absurd (hpassed k h) hend.not_passed

/-- The frames passed lie within COUNT, so the index where the loop ends is bounded (R152). -/
theorem State.index_le_of_passed (h : ∀ i, i < j → s.charPassed f i) :
    j ≤ (s.count.toNat - s.sspos.toNat) / f.width := by
  cases j with
  | zero => exact Nat.zero_le _
  | succ j =>
    have hfits : s.sspos.toNat + (j + 1) * f.width ≤ s.count.toNat := (h j j.lt_succ_self).1
    rw [Nat.le_div_iff_mul_le f.width_pos]
    omega

/-- The index where the loop ends fits in ERRIDX. -/
theorem State.index_lt_of_passed (h : ∀ i, i < j → s.charPassed f i) : j < 2 ^ 16 :=
  calc j ≤ (s.count.toNat - s.sspos.toNat) / f.width := State.index_le_of_passed h
    _ ≤ s.count.toNat := (Nat.div_le_self _ _).trans (Nat.sub_le _ _)
    _ < 2 ^ 16 := s.count.isLt

/-! ## TEXT where the loop ends (R149) -/

theorem State.framerAt_textByte {t : State} (htext : t.text = (s.framerAt f j).text) (hresets : t.resets = s.resets)
    (n : Nat) :
    (n + 1 < j → t.textByte n = asciiByte f (s.charValue f (n + 1))) ∧ (j ≤ n + 1 → t.textByte n = s.textByte n) := by
  have hread : Memory.read t.text n = ((s.charBytes f (j - 1))[n]?).or (Memory.read s.text n) := by
    rw [htext, State.framerAt, Memory.read_writeFrom_zero]
  refine ⟨fun hn => ?_, fun hn => ?_⟩
  · have hlt : n < j - 1 := by omega
    simp [State.textByte, hread, State.charBytes, hlt]
  · have hge : j - 1 ≤ n := by omega
    simp [State.textByte, hread, State.charBytes, hge, hresets]

/-! ## The stage's outcomes at an index -/

/-- The state in which DECODE_CHARS fails at index j (46_sequencer.md R175). -/
def State.charsFailed (why : Reason) (f : Format) (j : Nat) (s : State) : State :=
  State.fail why j { s with text := (s.framerAt f j).text }

theorem State.charsFailed_erridx (why : Reason) (hpassed : ∀ i, i < j → s.charPassed f i) :
    (s.charsFailed why f j).erridx.toNat = j :=
  (BitVec.toNat_ofNat j 16).trans (Nat.mod_eq_of_lt (State.index_lt_of_passed hpassed))

/-- The state in which DECODE_CHARS ends with the end sentinel at index j (R146). -/
def State.charsEnded (f : Format) (j : Nat) (s : State) : State := s.charsDecoded f (s.framerAt f j)

theorem State.charsEnded_ndata (hpassed : ∀ i, i < j → s.charPassed f i) : (s.charsEnded f j).ndata.toNat = j - 1 :=
  (BitVec.toNat_ofNat (j - 1) 16).trans
    (Nat.mod_eq_of_lt ((Nat.sub_le j 1).trans_lt (State.index_lt_of_passed hpassed)))

theorem State.charsEnded_endpos (hfits : s.charFits f j) :
    (s.charsEnded f j).endpos.toNat = s.sspos.toNat + (j + 1) * f.width := by
  have hcur : (s.framerAt f j).cur + f.width = s.sspos.toNat + (j + 1) * f.width := by
    rw [State.framerAt, Nat.succ_mul, Nat.add_assoc]
  rw [State.charsEnded, State.charsDecoded_endpos, hcur, BitVec.toNat_ofNat]
  exact Nat.mod_eq_of_lt (lt_of_le_of_lt hfits s.count.isLt)

/-- What the stage answers where its loop ends at index j. -/
theorem execDecodeChars_of_charsEnd (hf : s.trk.format = some f) (h : s.charsEnd f j (s.frameChars f)) :
    (¬ s.charFits f j ∧ execDecodeChars s = .next (s.charsFailed .truncated f j)) ∨
    (s.charFits f j ∧ oddParity (s.charFrame f j) f.width = false ∧
      execDecodeChars s = .next (s.charsFailed .parityError f j)) ∨
    (s.charFits f j ∧ oddParity (s.charFrame f j) f.width = true ∧ 1 ≤ j ∧ s.charValue f j = f.es ∧
      execDecodeChars s = .next (s.charsEnded f j)) := by
  rw [execDecodeChars, State.withFormat_some hf]
  rcases h with ⟨hfits, h⟩ | ⟨hfits, heven, h⟩ | ⟨hfits, hodd, hj, hes, h⟩ <;> rw [h]
  · exact .inl ⟨hfits, rfl⟩
  · exact .inr (.inl ⟨hfits, heven, rfl⟩)
  · exact .inr (.inr ⟨hfits, hodd, hj, hes, rfl⟩)

theorem execDecodeChars_truncated (hf : s.trk.format = some f) (hpassed : ∀ i, i < j → s.charPassed f i)
    (hfits : ¬ s.charFits f j) : execDecodeChars s = .next (s.charsFailed .truncated f j) := by
  have hend := State.frameChars_end_at hpassed fun ⟨h, _⟩ => hfits h
  rcases execDecodeChars_of_charsEnd hf hend with ⟨_, h⟩ | ⟨h, _⟩ | ⟨h, _⟩
  · exact h
  all_goals exact absurd h hfits

theorem execDecodeChars_parityError (hf : s.trk.format = some f) (hpassed : ∀ i, i < j → s.charPassed f i)
    (hfits : s.charFits f j) (heven : oddParity (s.charFrame f j) f.width = false) :
    execDecodeChars s = .next (s.charsFailed .parityError f j) := by
  have hend := State.frameChars_end_at hpassed fun ⟨_, hodd, _⟩ => Bool.false_ne_true (heven.symm.trans hodd)
  rcases execDecodeChars_of_charsEnd hf hend with ⟨h, _⟩ | ⟨_, _, h⟩ | ⟨_, h, _⟩
  · exact absurd hfits h
  · exact h
  · exact absurd (heven.symm.trans h) Bool.false_ne_true

theorem execDecodeChars_ended (hf : s.trk.format = some f) (hpassed : ∀ i, i < j → s.charPassed f i)
    (hfits : s.charFits f j) (hodd : oddParity (s.charFrame f j) f.width = true) (hj : 1 ≤ j) (hes : s.charValue f j = f.es) :
    execDecodeChars s = .next (s.charsEnded f j) := by
  have hend := State.frameChars_end_at hpassed fun ⟨_, _, hne⟩ => hne hj hes
  rcases execDecodeChars_of_charsEnd hf hend with ⟨h, _⟩ | ⟨_, h, _⟩ | ⟨_, _, _, _, h⟩
  · exact absurd hfits h
  · exact absurd (h.symm.trans hodd) Bool.false_ne_true
  · exact h

/-- The frames examined are those at the indices 0 to that of the end. -/
theorem State.charsEnd.framesExamined (h : s.charsEnd f j (s.frameChars f)) : s.framesExamined f = j + 1 := by
  rw [State.framesExamined]
  rcases h with ⟨_, h⟩ | ⟨_, _, h⟩ | ⟨_, _, _, _, h⟩ <;> rw [h] <;> rfl

end Chars

/-- Settles O15: the loop ends at index k + 1 with the end sentinel. -/
theorem decodeCharsReachesTheEndSentinel : Obligations.DecodeCharsReachesTheEndSentinel := by
  intro s f k hf hpassed hfits hodd hes
  have hpassed : ∀ i, i < k + 1 → s.charPassed f i := fun i hi => hpassed i (Nat.le_of_lt_succ hi)
  have htext := State.framerAt_textByte (t := s.charsEnded f (k + 1)) (s := s) (f := f) (j := k + 1) rfl rfl
  exact ⟨_, execDecodeChars_ended hf hpassed hfits hodd k.succ_pos hes, rfl, State.charsEnded_endpos hfits,
    State.charsEnded_ndata hpassed, rfl, fun n hn => (htext n).1 (Nat.succ_lt_succ hn),
    fun n hn => (htext n).2 (Nat.succ_le_succ hn)⟩

/-- Settles O16: the loop ends at index j, whose frame has even parity. -/
theorem decodeCharsFailsAtTheFirstEvenFrame : Obligations.DecodeCharsFailsAtTheFirstEvenFrame := by
  intro s f j hf hpassed hfits heven
  have htext := State.framerAt_textByte (t := s.charsFailed .parityError f j) (s := s) (f := f) (j := j) rfl rfl
  exact ⟨_, execDecodeChars_parityError hf hpassed hfits heven, rfl, State.charsFailed_erridx _ hpassed,
    fun n => (htext n).1, fun n => (htext n).2⟩

/-- Settles O17: the loop ends at index j, whose frame does not fit. -/
theorem decodeCharsFailsWhereBitsRunOut : Obligations.DecodeCharsFailsWhereBitsRunOut := by
  intro s f j hf hpassed hfits
  have htext := State.framerAt_textByte (t := s.charsFailed .truncated f j) (s := s) (f := f) (j := j) rfl rfl
  exact ⟨_, execDecodeChars_truncated hf hpassed hfits, rfl, State.charsFailed_erridx _ hpassed,
    fun n => (htext n).1, fun n => (htext n).2⟩

/-- Settles O18: the loop ends at an index before which all frames are passed, so within COUNT. -/
theorem decodeCharsAlwaysEndsWithinItsBound : Obligations.DecodeCharsAlwaysEndsWithinItsBound := by
  intro s f hf
  obtain ⟨j, hpassed, hend⟩ := s.frameChars_end f
  have hj := State.index_le_of_passed hpassed
  have htext : ∀ t : State, t.text = (s.framerAt f j).text → t.resets = s.resets →
      ∀ n, (s.count.toNat - s.sspos.toNat) / f.width ≤ n + 1 → t.textByte n = s.textByte n :=
    fun _ ht hr n hn => (State.framerAt_textByte ht hr n).2 (hj.trans hn)
  rcases execDecodeChars_of_charsEnd hf hend with ⟨hfits, h⟩ | ⟨hfits, heven, h⟩ | ⟨hfits, hodd, h1, hes, h⟩ <;>
    refine ⟨_, j, h, hj, hpassed, hend.framesExamined, htext _ rfl rfl, ?_⟩
  · exact .inl ⟨hfits, rfl, rfl⟩
  · exact .inr (.inl ⟨hfits, heven, rfl, rfl⟩)
  · exact .inr (.inr ⟨hfits, hodd, h1, hes, rfl, State.charsEnded_ndata hpassed⟩)

end Sys2Proof.Machine

/-! PROOFS. A track that DECODE_CHARS accepts, with one bit flipped (95_test_vectors.md V-PROP-3) or cut short (V-PROP-5). -/

namespace Sys2Proof.Machine

section Accepted
variable {s t : State} {f : Format} {i j q : Nat} {c : Reg}

/-- A track that DECODE_CHARS accepts has the end sentinel at index NDATA + 1, and all frames before it are passed (R146). -/
theorem execDecodeChars_accepts (hf : s.trk.format = some f) (h : execDecodeChars s = .next t)
    (hseq : t.seq = .charactersDecoded) :
    ∃ j, t.ndata.toNat + 1 = j ∧ (∀ i, i < j → s.charPassed f i) ∧ s.charFits f j ∧
      oddParity (s.charFrame f j) f.width = true ∧ t.endpos.toNat = s.sspos.toNat + (j + 1) * f.width := by
  obtain ⟨j, hpassed, hend⟩ := s.frameChars_end f
  rcases execDecodeChars_of_charsEnd hf hend with ⟨_, e⟩ | ⟨_, _, e⟩ | ⟨hfits, hodd, hj, _, e⟩ <;> rw [e] at h <;> cases h
  · cases hseq
  · cases hseq
  · refine ⟨j, ?_, hpassed, hfits, hodd, State.charsEnded_endpos hfits⟩
    rw [State.charsEnded_ndata hpassed, Nat.sub_add_cancel hj]

/-! ## One flipped bit of WORK -/

/-- The state with the bit of WORK at an address flipped. -/
def State.flipWork (a : Nat) (s : State) : State := { s with work := Memory.write s.work a (!s.workBit a) }

theorem State.flipWork_workBit_same (s : State) (a : Nat) : (s.flipWork a).workBit a = !s.workBit a := by
  rw [State.workBit, State.flipWork, Memory.read_write_same, Option.getD_some]

theorem State.flipWork_workBit_other (s : State) {a b : Nat} (h : b ≠ a) : (s.flipWork a).workBit b = s.workBit b := by
  rw [State.workBit, State.flipWork, Memory.read_write_other _ _ h]
  rfl

/-- The address of bit q of the frame at index j. -/
def State.charBit (s : State) (f : Format) (j q : Nat) : Nat := s.sspos.toNat + j * f.width + q

/-- Frames before the flipped one stay. -/
theorem State.flipWork_charFrame_before (s : State) (f : Format) (hij : i < j) (q : Nat) :
    (s.flipWork (s.charBit f j q)).charFrame f i = s.charFrame f i :=
  frame_congr fun k hk => s.flipWork_workBit_other <| by
    have hle : (i + 1) * f.width ≤ j * f.width := Nat.mul_le_mul_right _ hij
    have hsspos : (s.flipWork (s.charBit f j q)).sspos = s.sspos := rfl
    rw [Nat.succ_mul] at hle
    rw [hsspos, State.charBit]
    omega

theorem State.flipWork_charPassed_before (hij : i < j) (q : Nat) (h : s.charPassed f i) :
    (s.flipWork (s.charBit f j q)).charPassed f i := by
  have hframe := s.flipWork_charFrame_before f hij q
  obtain ⟨hfits, hodd, hes⟩ := h
  refine ⟨hfits, by rw [hframe, hodd], ?_⟩
  rw [State.charValue, hframe]
  exact hes

/-- The flip changes the parity of its frame (R142). -/
theorem State.flipWork_oddParity (s : State) (hq : q < f.width) :
    oddParity ((s.flipWork (s.charBit f j q)).charFrame f j) f.width = !oddParity (s.charFrame f j) f.width := by
  rw [State.charFrame, State.charFrame, oddParity_frame _ _ f.width_le, oddParity_frame _ _ f.width_le]
  exact bitsOdd_bitsOf_flip hq (s.flipWork_workBit_same _) fun i _ hi =>
    s.flipWork_workBit_other fun h => hi (Nat.add_left_cancel h)

/-! ## A cut below COUNT -/

/-- The number of whole frames below a cut. -/
def State.framesBelow (s : State) (f : Format) (c : Reg) : Nat := (c.toNat - s.sspos.toNat) / f.width

theorem State.setCount_charFits_iff (hc : s.sspos.toNat ≤ c.toNat) :
    State.charFits { s with count := c } f i ↔ i < s.framesBelow f c := by
  have hdiv : i + 1 ≤ s.framesBelow f c ↔ (i + 1) * f.width ≤ c.toNat - s.sspos.toNat :=
    Nat.le_div_iff_mul_le f.width_pos
  rw [← Nat.succ_le_iff, hdiv, State.charFits]
  dsimp only
  omega

/-- The frames below the cut stay. -/
theorem State.setCount_charPassed (h : s.charPassed f i) (hfits : State.charFits { s with count := c } f i) :
    State.charPassed { s with count := c } f i := by
  obtain ⟨_, hodd, hes⟩ := h
  exact ⟨hfits, hodd, hes⟩

end Accepted

/-- Settles O50: the frames before the flipped one are passed as before, and its parity is even. -/
theorem anySingleFlipIsAParityErrorAtItsIndex : Obligations.AnySingleFlipIsAParityErrorAtItsIndex := by
  intro s t f j q hf h hseq _ hj hq
  obtain ⟨m, hm, hpassed, hmfits, hmodd, -⟩ := execDecodeChars_accepts hf h hseq
  rw [hm] at hj
  have hjframe : s.charFits f j ∧ oddParity (s.charFrame f j) f.width = true := by
    rcases Nat.lt_or_eq_of_le hj with hlt | rfl
    · obtain ⟨hfits, hodd, -⟩ := hpassed j hlt
      exact ⟨hfits, hodd⟩
    · exact ⟨hmfits, hmodd⟩
  obtain ⟨hfits, hodd⟩ := hjframe
  have hbefore : ∀ i, i < j → (s.flipWork (s.charBit f j q)).charPassed f i := fun i hi =>
    State.flipWork_charPassed_before hi q (hpassed i (hi.trans_le hj))
  have heven : oddParity ((s.flipWork (s.charBit f j q)).charFrame f j) f.width = false := by
    rw [s.flipWork_oddParity hq, hodd, Bool.not_true]
  exact ⟨_, execDecodeChars_parityError hf hbefore hfits heven, rfl, rfl, State.charsFailed_erridx _ hbefore⟩

/-- Settles O51: the frames that lie whole below the cut are passed as before, and the next one does not fit. -/
theorem anyCutBeforeTheEndSentinelIsTruncated : Obligations.AnyCutBeforeTheEndSentinelIsTruncated := by
  intro s t f c hf h hseq hss hcut
  obtain ⟨m, -, hpassed, -, -, hend⟩ := execDecodeChars_accepts hf h hseq
  have hc : s.sspos.toNat ≤ c.toNat := Nat.le_of_add_right_le hss
  have hle : s.framesBelow f c < m + 1 := (Nat.div_lt_iff_lt_mul f.width_pos).2 (by omega)
  have hbefore : ∀ i, i < s.framesBelow f c → State.charPassed { s with count := c } f i := fun i hi =>
    State.setCount_charPassed (hpassed i (by omega)) ((State.setCount_charFits_iff hc).2 hi)
  have hcutframe : ¬ State.charFits { s with count := c } f (s.framesBelow f c) :=
    mt (State.setCount_charFits_iff hc).1 (lt_irrefl _)
  exact ⟨_, execDecodeChars_truncated hf hbefore hcutframe, rfl, rfl, State.charsFailed_erridx _ hbefore⟩

end Sys2Proof.Machine

/-! PROOFS. The expected LRC character is the character of ACC's data bits (45_lrc_engine.md R161), and LRC_CHECK's comparison
with it (R164). -/

namespace Sys2Proof.Machine

/-! ## LRC_EXP as a character (R161) -/

theorem getLsbD_frame_of_le (bit : Nat → Bool) (p : Nat) {W i : Nat} (hi : W ≤ i) : (frame bit p W).getLsbD i = false := by
  rw [frame, BitVec.getLsbD_ofNat, testBit_frameSum, decide_eq_false (Nat.not_lt.2 hi), Bool.false_and, Bool.and_false]

theorem toNat_frame_lt (bit : Nat → Bool) (p W : Nat) : (frame bit p W).toNat < 2 ^ W :=
  Nat.lt_pow_two_of_testBit _ fun _ hi => getLsbD_frame_of_le bit p hi

/-- The x of R161, ACC[D-1:0]. -/
def lrcData (f : Format) (acc : DataVal) : DataVal := (acc.setWidth f.dataBits).setWidth 6

theorem toNat_lrcData_lt (f : Format) (acc : DataVal) : (lrcData f acc).toNat < 2 ^ f.dataBits := by
  rw [lrcData, BitVec.toNat_setWidth]
  exact (Nat.mod_le _ _).trans_lt (acc.setWidth f.dataBits).isLt

/-- R161's value bit by bit: x, and above it the parity bit. -/
theorem getLsbD_lrcExpected (f : Format) (acc : DataVal) {i : Nat} (hi : i < 7) :
    (lrcExpected f acc).getLsbD i = ((lrcData f acc).getLsbD i || (decide (i = f.dataBits) && oddBit (lrcData f acc))) := by
  rw [lrcExpected, ← lrcData, BitVec.getLsbD_or, BitVec.getLsbD_setWidth, BitVec.getLsbD_shiftLeft, BitVec.getLsbD_setWidth,
    BitVec.getLsbD_ofBool, decide_eq_true hi]
  congr 1
  rcases Nat.lt_trichotomy i f.dataBits with h | h | h
  · simp [h, h.ne]
  · simp [h]
  · simp [h.ne', Nat.sub_ne_zero_of_lt h]

/-- LRC_EXP is the character that stands on the track for the data value ACC[D-1:0]. -/
theorem lrcExpected_eq_charOf (f : Format) (acc : DataVal) : lrcExpected f acc = charOf f (lrcData f acc).toNat := by
  have hv := toNat_lrcData_lt f acc
  have hw := f.width_eq
  refine BitVec.eq_of_getLsbD_eq fun i hi => ?_
  rw [getLsbD_lrcExpected f acc hi]
  rcases Nat.lt_trichotomy i f.dataBits with h | rfl | h
  · rw [getLsbD_charOf _ (by omega), getD_sourceChar_data _ h, decide_eq_false h.ne, Bool.false_and, Bool.or_false]
    rfl
  · rw [← parityBit_charOf hv, getLsbD_eq_false_of_lt hv le_rfl, decide_eq_true rfl, Bool.true_and, Bool.false_or]
    rfl
  · rw [charOf, getLsbD_frame_of_le _ _ (by omega), getLsbD_eq_false_of_lt hv h.le, decide_eq_false h.ne', Bool.false_and,
      Bool.or_false]

/-- Settles O8: LRC_EXP is the character of x, a frame with x in its data bits and odd parity. -/
theorem expectedLrcIsTheXorWithOddParity : Obligations.ExpectedLrcIsTheXorWithOddParity := by
  intro f acc
  have hv := toNat_lrcData_lt f acc
  rw [lrcExpected_eq_charOf]
  refine ⟨dataField_charOf hv, parityBit_charOf hv, oddParity_charOf f _, toNat_frame_lt _ _ _, ?_⟩
  cases f <;> decide

/-! ## The layout of the LRC register (10_state.md R37) -/

section LrcLayout
variable (obs exp : Frame) (present : Bool)

@[simp] theorem lrcLayout_exp : (lrcLayout obs present exp).extractLsb' 0 7 = exp :=
  BitVec.extractLsb'_append_eq_right

@[simp] theorem lrcLayout_present : (lrcLayout obs present exp).getLsbD 7 = present := by
  rw [lrcLayout, BitVec.getLsbD_append, if_neg (by decide), BitVec.getLsbD_append, if_pos (by decide),
    BitVec.getLsbD_ofBool, decide_eq_true rfl, Bool.true_and]

@[simp] theorem lrcLayout_obs : (lrcLayout obs present exp).extractLsb' 8 7 = obs := by
  rw [lrcLayout, BitVec.extractLsb'_append_eq_of_le (by decide), BitVec.extractLsb'_append_eq_of_le (by decide)]
  exact BitVec.extractLsb'_append_eq_right

@[simp] theorem lrcLayout_reserved : (lrcLayout obs present exp).getLsbD 15 = false := by
  rw [lrcLayout, BitVec.getLsbD_append, if_neg (by decide), BitVec.getLsbD_append, if_neg (by decide),
    BitVec.getLsbD_append, if_neg (by decide)]
  exact BitVec.getLsbD_zero

end LrcLayout

/-! ## LRC_CHECK with an LRC frame and without one (R162, R164) -/

section Check
variable {s : State} {f : Format}

theorem State.lrcPresent_iff : s.lrcPresent f = true ↔ s.endpos.toNat + f.width ≤ s.count.toNat := decide_eq_true_iff

theorem State.lrcObserved_of_present (h : s.lrcPresent f = true) :
    s.lrcObserved f = frame s.workBit s.endpos.toNat f.width := if_pos h

theorem State.lrcObserved_of_absent (h : s.lrcPresent f = false) : s.lrcObserved f = 0 := by
  rw [State.lrcObserved, h, if_neg Bool.false_ne_true]

theorem State.lrcMatch_of_present (h : s.lrcPresent f = true) :
    s.lrcMatch f = true ↔ frame s.workBit s.endpos.toNat f.width = lrcExpected f s.acc := by
  rw [State.lrcMatch, h, Bool.true_and, State.lrcObserved_of_present h, beq_iff_eq]

theorem State.lrcMatch_of_absent (h : s.lrcPresent f = false) : s.lrcMatch f = false := by
  rw [State.lrcMatch, h, Bool.false_and]

end Check

/-- Settles O19: the fields of the layout, with the frame at ENDPOS where one is present. -/
theorem lrcCheckComparesTheWholeCharacter : Obligations.LrcCheckComparesTheWholeCharacter := by
  intro s f hf present obs
  refine ⟨_, execLrcCheck_eq hf, rfl, lrcLayout_exp .., lrcLayout_reserved .., fun hp => ?_, fun hp => ?_⟩
  · have hp : s.lrcPresent f = true := State.lrcPresent_iff.2 hp
    simp only [lrcLayout_present, lrcLayout_obs]
    exact ⟨hp, State.lrcObserved_of_present hp, State.lrcMatch_of_present hp⟩
  · have hp : s.lrcPresent f = false := Bool.eq_false_iff.2 (mt State.lrcPresent_iff.1 hp)
    simp only [lrcLayout_present, lrcLayout_obs]
    exact ⟨hp, State.lrcObserved_of_absent hp, State.lrcMatch_of_absent hp⟩

end Sys2Proof.Machine

/-! PROOFS. What a host transaction can do, said once: it changes nothing but EXT's own state and the model's bookkeeping, or it
stores COUNT or one bit of RAW, or it is an acceptance (47_host_commands.md R190 to R195). -/

namespace Sys2Proof.Machine

/-! ## The block, without what is EXT's own or the model's -/

/-- The state with EXT's own state, the refusal mark and the model's bookkeeping cleared: what is left is the block's. -/
def State.block (s : State) : State :=
  { s with refused := false, draws := 0, program := [], schedule := [], reads := [] }

section Block
variable (s : State)

@[simp] theorem State.popTurn_block : s.popTurn.block = s.block := rfl
@[simp] theorem State.popProgram_block : s.popProgram.block = s.block := rfl
@[simp] theorem State.refuse_block : s.refuse.block = s.block := rfl
@[simp] theorem State.useDraws_block (n : Nat) : (s.useDraws n).block = s.block := rfl
@[simp] theorem State.returnRead_block (v : Reg) : (s.returnRead v).block = s.block := rfl

@[simp] theorem State.resume_block (op : HostOp) : (s.resume op).block = s.block := by
  cases op with
  | xfer w => rfl
  | append b => rfl
  | wait => simp only [State.resume]; split <;> rfl

end Block

theorem State.seq_of_block_eq {s t : State} (h : t.block = s.block) : t.seq = s.seq := (congrArg State.seq h :)

/-! ## What a transaction can do -/

/-- The instruction is one of the three DECODE commands. -/
def IsDecode (i : Instr) : Prop := i = .decodeT1 ∨ i = .decodeT2 ∨ i = .decodeT3

/-- What the transaction i can make of the state s: nothing of the block changes, or, with BUSY = 0, COUNT or one bit of RAW is
stored within the capacity, or a DECODE is accepted. -/
inductive HostEffect (i : Instr) (s : State) : State → Prop where
  | keepsBlock {t : State} (h : t.block = s.block) : HostEffect i s t
  | setsCount (hbusy : s.busy = false) (n : Reg) (hn : n.toNat ≤ s.cap) : HostEffect i s { s with count := n }
  | setsRawBit (hbusy : s.busy = false) (a : Nat) (b : Bool) (ha : a < s.cap) :
    HostEffect i s { s with raw := Memory.write s.raw a b }
  | accepts (hbusy : s.busy = false) (k : TrackCode) (hk : k ≠ .noTrack) (hi : IsDecode i) :
    HostEffect i s (s.accept k)

section Transactions
variable {s t : State} {i : Instr}

theorem ReadOutcome.block_eq (h : ReadOutcome s (.next t)) : t.block = s.block := by
  rcases h with h | ⟨v, n, h⟩ <;> cases h
  · exact s.refuse_block
  · simp

theorem startDecode_hostEffect {k : TrackCode} (hk : k ≠ .noTrack) (hi : IsDecode i)
    (h : s.startDecode k = .next t) : HostEffect i s t := by
  rcases State.startDecode_eq k s with ⟨hbusy, e⟩ | ⟨_, e⟩ <;> rw [e] at h <;> cases h
  · exact .accepts hbusy k hk hi
  · exact .keepsBlock s.refuse_block

theorem execWrCount_hostEffect {n : Reg} (h : execWrCount n s = .next t) : HostEffect i s t := by
  by_cases hr : s.busy = true ∨ s.cap < n.toNat
  · rw [execWrCount_refused hr] at h
    cases h
    exact .keepsBlock s.refuse_block
  · rw [execWrCount_stored hr] at h
    cases h
    obtain ⟨hbusy, hn⟩ := not_or.1 hr
    exact .setsCount (Bool.eq_false_iff.2 hbusy) n (Nat.not_lt.1 hn)

theorem execWrRaw_hostEffect {a : Reg} {b : Bool} (h : execWrRaw a b s = .next t) : HostEffect i s t := by
  by_cases hr : s.busy = true ∨ s.cap ≤ a.toNat
  · rw [execWrRaw_refused b hr] at h
    cases h
    exact .keepsBlock s.refuse_block
  · rw [execWrRaw_stored b hr] at h
    cases h
    obtain ⟨hbusy, ha⟩ := not_or.1 hr
    exact .setsRawBit (Bool.eq_false_iff.2 hbusy) a.toNat b (Nat.not_le.1 ha)

/-- Every host transaction has one of the four effects. -/
theorem exec_hostEffect (hi : hostInstr i = true) (h : exec i s = .next t) : HostEffect i s t := by
  by_cases hr : readInstr i = true
  · have hread := exec_readOutcome s hr
    rw [h] at hread
    exact .keepsBlock hread.block_eq
  cases i with
  | decodeT1 => exact startDecode_hostEffect (k := .t1) nofun (.inl rfl) h
  | decodeT2 => exact startDecode_hostEffect (k := .t2) nofun (.inr (.inl rfl)) h
  | decodeT3 => exact startDecode_hostEffect (k := .t3) nofun (.inr (.inr rfl)) h
  | wrCount n => exact execWrCount_hostEffect h
  | wrRaw a b => exact execWrRaw_hostEffect h
  | rdRaw | rdText => simp [readInstr, encode] at hr
  | rdCmd | rdStatus | rdCount | rdLength | rdErridx | rdSspos | rdEndpos | rdLrc => exact absurd (by decide) hr
  | detect | normloc | decodeChars | lrcCheck | publish => exact absurd hi (by decide)

/-- A transaction leaves STATE as it is, or a DECODE is accepted while BUSY = 0 (46_sequencer.md R171). -/
theorem HostEffect.seq_cases (h : HostEffect i s t) :
    t.seq = s.seq ∨ (s.busy = false ∧ t.seq = .accepted ∧ IsDecode i) := by
  cases h with
  | keepsBlock h => exact .inl (State.seq_of_block_eq h)
  | setsCount => exact .inl rfl
  | setsRawBit => exact .inl rfl
  | accepts hbusy k hk hi => exact .inr ⟨hbusy, rfl, hi⟩

end Transactions

/-! ## EXT's turn -/

/-- The reads that WAIT and APPEND issue are no DECODE, so a DECODE comes from a word of the program (30_encoding.md R95). -/
theorem HostOp.eq_xfer_of_isDecode {op : HostOp} {i : Instr} (hd : decodeHt35 op.word = .ok i) (hi : IsDecode i) :
    ∃ w, op = .xfer w := by
  cases op with
  | xfer w => exact ⟨w, rfl⟩
  | wait =>
    obtain rfl : Instr.rdStatus = i :=
      Except.ok.inj ((show decodeHt35 (HostOp.word .wait) = .ok .rdStatus by decide).symm.trans hd)
    exact absurd hi (by simp [IsDecode])
  | append b =>
    obtain rfl : Instr.rdCount = i :=
      Except.ok.inj ((show decodeHt35 (ht35Word 0 0 2 0) = .ok .rdCount by decide).symm.trans hd)
    exact absurd hi (by simp [IsDecode])

/-- A step on EXT's turn leaves the block as it is, or it is the effect of the transaction at the program's head, up to what is
EXT's own. -/
theorem step_ext_cases {s t : State} (hturn : s.nextTurn = some .ext) (h : step s = .next t) :
    t.block = s.block ∨
    ∃ op ops i u, s.program = op :: ops ∧ decodeHt35 op.word = .ok i ∧ HostEffect i s.popTurn.popProgram u ∧
      t.block = u.block := by
  rcases step_cases h with ⟨rfl, _⟩ | ⟨rfl, _⟩ | ⟨_, hreset⟩ | ⟨hengine, _⟩ |
    ⟨_, op, ops, hp, ⟨rfl, _⟩ | ⟨i, hd, hexec | ⟨u, hexec, rfl⟩⟩⟩
  · exact .inl rfl
  · exact .inl s.popTurn_block
  · rw [hturn] at hreset
    cases hreset
  · rw [hturn] at hengine
    cases hengine
  · exact .inl rfl
  · exact .inr ⟨op, ops, i, t, hp, hd, exec_hostEffect (hostInstr_of_decodeHt35 hd) hexec, rfl⟩
  · exact .inr ⟨op, ops, i, u, hp, hd, exec_hostEffect (hostInstr_of_decodeHt35 hd) hexec, u.resume_block op⟩

end Sys2Proof.Machine

/-! PROOFS. The transition relation of STATUS.STATE (46_sequencer.md R171 to R174): the rows of the five stages, and the step by
whose turn it was. -/

namespace Sys2Proof.Machine

/-- Settles O20: the arm of PUBLISH. -/
theorem publishWritesLengthAndReason : Obligations.PublishWritesLengthAndReason := fun _ => rfl

/-! ## The rows of the stages (R171) -/

section Rows
variable {s t : State}

theorem execDetect_seq (h : execDetect s = .next t) :
    t.seq = .directionDetected ∨ (t.seq = .failed ∧ t.reason = .noSentinel) := by
  obtain ⟨f, hf, -⟩ := State.withFormat_next h
  rcases execDetect_cases hf with ⟨_, _, e⟩ | ⟨_, _, _, e⟩ | ⟨_, _, e⟩ <;> rw [e] at h <;> cases h
  · exact .inl rfl
  · exact .inl rfl
  · exact .inr ⟨rfl, rfl⟩

theorem execNormloc_seq (h : execNormloc s = .next t) : t.seq = .sentinelFound := by
  obtain ⟨f, hf, -⟩ := State.withFormat_next h
  rcases execNormloc_cases hf with ⟨_, _, e⟩ | ⟨_, e⟩ <;> rw [e] at h <;> cases h
  rfl

/-- DECODE_CHARS ends at an index in one of three ways; all frames before the index are passed (R146, R152). -/
theorem execDecodeChars_next_cases (h : execDecodeChars s = .next t) :
    ∃ f j, s.trk.format = some f ∧ (∀ i, i < j → s.charPassed f i) ∧
      ((∃ why, (why = .parityError ∨ why = .truncated) ∧ t = s.charsFailed why f j) ∨
       (s.charFits f j ∧ 1 ≤ j ∧ t = s.charsEnded f j)) := by
  obtain ⟨f, hf, -⟩ := State.withFormat_next h
  obtain ⟨j, hpassed, hend⟩ := s.frameChars_end f
  refine ⟨f, j, hf, hpassed, ?_⟩
  rcases execDecodeChars_of_charsEnd hf hend with ⟨_, e⟩ | ⟨_, _, e⟩ | ⟨hfits, _, hj, _, e⟩ <;> rw [e] at h <;> cases h
  · exact .inl ⟨_, .inr rfl, rfl⟩
  · exact .inl ⟨_, .inl rfl, rfl⟩
  · exact .inr ⟨hfits, hj, rfl⟩

theorem execDecodeChars_seq (h : execDecodeChars s = .next t) :
    t.seq = .charactersDecoded ∨ (t.seq = .failed ∧ (t.reason = .parityError ∨ t.reason = .truncated)) := by
  obtain ⟨f, j, _, _, ⟨why, hwhy, rfl⟩ | ⟨_, _, rfl⟩⟩ := execDecodeChars_next_cases h
  · exact .inr ⟨rfl, hwhy⟩
  · exact .inl rfl

theorem execLrcCheck_seq (h : execLrcCheck s = .next t) : t.seq = .checksumChecked := by
  obtain ⟨f, hf, -⟩ := State.withFormat_next h
  rw [execLrcCheck_eq hf] at h
  cases h
  rfl

theorem execPublish_seq (h : execPublish s = .next t) : t.seq = .done := by
  cases h
  rfl

end Rows

/-! ## The step by whose turn it was -/

section Turns
variable {s t : State}

theorem step_nobody (hturn : s.nextTurn = none) : step s = .next s := by rw [step, State.nextMove_nobody hturn]

theorem step_reset (hturn : s.nextTurn = some .reset) : step s = .next s.popTurn.resetBlock := by
  rw [step, State.nextMove_reset hturn]

/-- On ENGINE's turn no stage is selected and only the turn is used, or the selected stage runs (30_encoding.md R90). -/
theorem step_engine_cases (hturn : s.nextTurn = some .engine) (h : step s = .next t) :
    (s.busy = false ∧ t = s.popTurn) ∨
    (s.seq = .accepted ∧ execDetect s.popTurn = .next t) ∨
    (s.seq = .directionDetected ∧ execNormloc s.popTurn = .next t) ∨
    (s.seq = .sentinelFound ∧ execDecodeChars s.popTurn = .next t) ∨
    (s.seq = .charactersDecoded ∧ execLrcCheck s.popTurn = .next t) ∨
    (s.seq = .checksumChecked ∧ execPublish s.popTurn = .next t) := by
  rw [step, State.nextMove_engine hturn, State.engineMove, State.popTurn_seq] at h
  rcases decodeStage_code s.seq with ⟨hq, e⟩ | ⟨hq, e⟩ | ⟨hq, e⟩ | ⟨hq, e⟩ | ⟨hq, e⟩ | ⟨hq, e⟩ <;> rw [e] at h
  · cases h
    exact .inl ⟨hq, rfl⟩
  · exact .inr (.inl ⟨hq, h⟩)
  · exact .inr (.inr (.inl ⟨hq, h⟩))
  · exact .inr (.inr (.inr (.inl ⟨hq, h⟩)))
  · exact .inr (.inr (.inr (.inr (.inl ⟨hq, h⟩))))
  · exact .inr (.inr (.inr (.inr (.inr ⟨hq, h⟩))))

theorem step_ext_seq (hturn : s.nextTurn = some .ext) (h : step s = .next t) :
    t.seq = s.seq ∨
    (s.busy = false ∧ t.seq = .accepted ∧ ∃ w ops i, s.program = .xfer w :: ops ∧ decodeHt35 w = .ok i ∧ IsDecode i) := by
  rcases step_ext_cases hturn h with hblock | ⟨op, ops, i, u, hp, hd, heffect, hblock⟩
  · exact .inl (State.seq_of_block_eq hblock)
  · rw [State.seq_of_block_eq hblock]
    rcases heffect.seq_cases with hseq | ⟨hbusy, hseq, hi⟩
    · exact .inl hseq
    · obtain ⟨w, rfl⟩ := HostOp.eq_xfer_of_isDecode hd hi
      exact .inr ⟨hbusy, hseq, w, ops, i, hp, hd, hi⟩

theorem step_engine_seq (hturn : s.nextTurn = some .engine) (h : step s = .next t) :
    (s.busy = false ∧ t.seq = s.seq) ∨
    (s.seq = .accepted ∧ (t.seq = .directionDetected ∨ (t.seq = .failed ∧ t.reason = .noSentinel))) ∨
    (s.seq = .directionDetected ∧ t.seq = .sentinelFound) ∨
    (s.seq = .sentinelFound ∧ (t.seq = .charactersDecoded ∨
      (t.seq = .failed ∧ (t.reason = .parityError ∨ t.reason = .truncated)))) ∨
    (s.seq = .charactersDecoded ∧ t.seq = .checksumChecked) ∨
    (s.seq = .checksumChecked ∧ t.seq = .done) := by
  rcases step_engine_cases hturn h with ⟨hq, rfl⟩ | ⟨hq, h⟩ | ⟨hq, h⟩ | ⟨hq, h⟩ | ⟨hq, h⟩ | ⟨hq, h⟩
  · exact .inl ⟨hq, rfl⟩
  · exact .inr (.inl ⟨hq, execDetect_seq h⟩)
  · exact .inr (.inr (.inl ⟨hq, execNormloc_seq h⟩))
  · exact .inr (.inr (.inr (.inl ⟨hq, execDecodeChars_seq h⟩)))
  · exact .inr (.inr (.inr (.inr (.inl ⟨hq, execLrcCheck_seq h⟩))))
  · exact .inr (.inr (.inr (.inr (.inr ⟨hq, execPublish_seq h⟩))))

end Turns

/-- Settles O42: one lemma per agent, the ENGINE's from the rows of the five stages. -/
theorem sequencerTransitionsAreComplete : Obligations.SequencerTransitionsAreComplete := by
  intro s t h
  refine ⟨fun hturn => ?_, fun hturn => ?_, fun hturn => step_ext_seq hturn h, fun hturn => step_engine_seq hturn h⟩
  · rw [step_nobody hturn] at h
    cases h
    rfl
  · rw [step_reset hturn] at h
    cases h
    rfl

end Sys2Proof.Machine

/-! PROOFS. Every step keeps the invariant (46_sequencer.md R176, 10_state.md R25 to R43, 20_memory.md R60): acceptance and reset
establish it, the stores of COUNT and RAW are made while BUSY = 0, and each stage leads from its state's clause to the next. -/

namespace Sys2Proof.Machine

/-! ## The invariant speaks of the block alone -/

section Block
variable {s t : State}

/-- In DIRECTION_DETECTED the invariant speaks of NORMALIZE, which copies by DIR; the other clauses read fields of the block. -/
theorem State.block_resultInv (s : State) : s.block.resultInv ↔ s.resultInv := by
  cases s with
  | mk seq _ dir =>
    cases seq with
    | directionDetected =>
      cases dir with
      | unknown | forward | backward => exact Iff.rfl
    | idle | accepted | sentinelFound | charactersDecoded | checksumChecked | done | failed => exact Iff.rfl

theorem State.block_inv (s : State) : s.block.Inv ↔ s.Inv :=
  and_congr_right' (and_congr_right' (and_congr_left' s.block_resultInv))

/-- What is EXT's own or the model's bookkeeping does not touch the invariant. -/
theorem State.inv_of_block_eq (h : t.block = s.block) (hs : s.Inv) : t.Inv := by
  rw [← State.block_inv, h, State.block_inv]
  exact hs

end Block

/-! ## Reset and the host transactions -/

section Host
variable {s t : State} {i : Instr}

/-- Reset of the block is IDLE with every result register clear and nothing written in the buffers (10_state.md R44). -/
theorem State.resetBlock_inv (hs : s.Inv) : s.resetBlock.Inv := by
  obtain ⟨⟨hcap, hcap', -⟩, -⟩ := hs
  exact ⟨⟨hcap, hcap', Nat.zero_le _⟩,
    ⟨Memory.wf_nil, Memory.wf_nil, Memory.wf_nil, Memory.below_nil _, Memory.below_nil _, Memory.below_nil _⟩,
    ⟨rfl, rfl, rfl, rfl, ⟨rfl, rfl, rfl⟩, rfl, rfl, rfl, rfl⟩, nofun⟩

/-- Acceptance latches a track and clears the result registers (47_host_commands.md R190). -/
theorem State.accept_inv {k : TrackCode} (hk : k ≠ .noTrack) (hs : s.Inv) : (s.accept k).Inv := by
  obtain ⟨hparam, hbuffer, -⟩ := hs
  exact ⟨hparam, hbuffer, ⟨hk, rfl, rfl, rfl, ⟨rfl, rfl, rfl⟩, rfl, rfl, rfl, rfl⟩, fun _ => show (0 : DataVal).toNat < 16 by decide⟩

/-- While BUSY = 0 the result state says nothing of COUNT and RAW. -/
theorem State.resultInv_setSwipe (hbusy : s.busy = false) (n : Reg) (r : List (Nat × Bool)) (hs : s.resultInv) :
    State.resultInv { s with count := n, raw := r } := by
  cases s with
  | mk seq =>
    cases seq with
    | idle | done | failed => exact hs
    | accepted | directionDetected | sentinelFound | charactersDecoded | checksumChecked => cases hbusy

theorem HostEffect.inv (h : HostEffect i s t) (hs : s.Inv) : t.Inv := by
  have ⟨⟨hcap, hcap', hcount⟩, ⟨hraw, hwork, htext, hrawBelow, hworkBelow, htextBelow⟩, hresult, hacc⟩ := hs
  cases h with
  | keepsBlock h => exact State.inv_of_block_eq h hs
  | setsCount hbusy n hn =>
    exact ⟨⟨hcap, hcap', hn⟩, ⟨hraw, hwork, htext, hrawBelow, hworkBelow, htextBelow⟩,
      State.resultInv_setSwipe hbusy n s.raw hresult, hacc⟩
  | setsRawBit hbusy a b ha =>
    exact ⟨⟨hcap, hcap', hcount⟩,
      ⟨Memory.wf_write hraw a b, hwork, htext, Memory.below_write hrawBelow ha b, hworkBelow, htextBelow⟩,
      State.resultInv_setSwipe hbusy s.count _ hresult, hacc⟩
  | accepts _ k hk _ => exact State.accept_inv hk hs

theorem step_ext_inv (hturn : s.nextTurn = some .ext) (h : step s = .next t) (hs : s.Inv) : t.Inv := by
  rcases step_ext_cases hturn h with hblock | ⟨_, _, _, u, _, _, heffect, hblock⟩
  · exact State.inv_of_block_eq hblock hs
  · exact State.inv_of_block_eq hblock (heffect.inv (State.inv_of_block_eq (s := s) (by simp) hs))

end Host

/-! ## The buffers under the stages (20_memory.md R60) -/

section Buffers
variable {s : State} {f : Format} {j : Nat}

/-- A sequence of COUNT bits written from address 0 fits in WORK. -/
theorem State.bufferInv_writeWork {bits : List Bool} (hlen : bits.length = s.count.toNat) (hp : s.paramInv)
    (hb : s.bufferInv) : State.bufferInv { s with work := Memory.writeFrom s.work 0 bits } := by
  obtain ⟨-, -, hcount⟩ := hp
  obtain ⟨hraw, hwork, htext, hrawBelow, hworkBelow, htextBelow⟩ := hb
  exact ⟨hraw, Memory.wf_writeFrom hwork 0 bits, htext, hrawBelow,
    Memory.below_writeFrom hworkBelow (by omega), htextBelow⟩

theorem State.copyRaw_bufferInv (hp : s.paramInv) (hb : s.bufferInv) : s.copyRaw.bufferInv :=
  State.bufferInv_writeWork s.length_capturedBits hp hb

theorem State.copyRawReversed_bufferInv (hp : s.paramInv) (hb : s.bufferInv) : s.copyRawReversed.bufferInv :=
  State.bufferInv_writeWork s.length_reversedBits hp hb

theorem State.normalize_bufferInv (hp : s.paramInv) (hb : s.bufferInv) : s.normalize.bufferInv := by
  rcases s.normalize_cases with ⟨_, e⟩ | ⟨_, e⟩ <;> rw [e]
  · exact State.copyRawReversed_bufferInv hp hb
  · exact State.copyRaw_bufferInv hp hb

/-- No more frames are passed than OUT_CAP: each takes at least 5 of at most CAP bits (92_eei_decisions.md D22). -/
theorem State.index_le_outCap (hp : s.paramInv) (hpassed : ∀ i, i < j → s.charPassed f i) : j ≤ s.outCap := by
  obtain ⟨-, -, hcount⟩ := hp
  calc j ≤ (s.count.toNat - s.sspos.toNat) / f.width := State.index_le_of_passed hpassed
    _ ≤ s.cap / f.width := Nat.div_le_div_right ((Nat.sub_le _ _).trans hcount)
    _ ≤ s.cap / 5 := Nat.div_le_div_left f.five_le_width (by decide)

/-- The bytes of the data characters passed fit in TEXT. -/
theorem State.framerAt_text_bufferInv (hp : s.paramInv) (hb : s.bufferInv) (hpassed : ∀ i, i < j → s.charPassed f i) :
    State.bufferInv { s with text := (s.framerAt f j).text } := by
  have hj := State.index_le_outCap hp hpassed
  obtain ⟨hraw, hwork, htext, hrawBelow, hworkBelow, htextBelow⟩ := hb
  refine ⟨hraw, hwork, Memory.wf_writeFrom htext 0 _, hrawBelow, hworkBelow, Memory.below_writeFrom htextBelow ?_⟩
  rw [State.length_charBytes]
  omega

end Buffers

/-! ## What DECODE_CHARS leaves (44_character_framer.md R146 to R150, 10_state.md R42) -/

section Chars
variable {s : State} {f : Format} {j : Nat}

theorem State.toNat_charValue_lt (s : State) (f : Format) (k : Nat) : (s.charValue f k).toNat < 2 ^ f.dataBits := by
  rw [State.charValue, dataField, BitVec.toNat_setWidth]
  exact (Nat.mod_le _ _).trans_lt ((s.charFrame f k).setWidth f.dataBits).isLt

/-- The XOR of data values is a data value. -/
theorem State.toNat_xorOfChars_lt (s : State) (f : Format) (n : Nat) : (s.xorOfChars f n).toNat < 2 ^ f.dataBits := by
  induction n with
  | zero => exact Nat.two_pow_pos _
  | succ n ih =>
    rw [State.xorOfChars, BitVec.toNat_xor]
    exact Nat.xor_lt_two_pow ih (s.toNat_charValue_lt f (n + 1))

theorem State.charsEnded_accInv (hf : s.trk.format = some f) : (s.charsEnded f j).accInv := by
  intro h
  obtain rfl : f = .fourBit := Option.some.inj (hf.symm.trans h)
  exact s.toNat_xorOfChars_lt .fourBit (j - 1)

/-- The end sentinel is the frame after the NDATA data characters, each of which has its byte in TEXT. -/
theorem State.charsEnded_charsReady (hdir : s.dir ≠ .unknown) (hpassed : ∀ i, i < j → s.charPassed f i)
    (hfits : s.charFits f j) (hj : 1 ≤ j) : (s.charsEnded f j).charsReady f := by
  have hndata : (s.charsEnded f j).ndata.toNat = j - 1 := State.charsEnded_ndata hpassed
  refine ⟨hdir, ?_, fun n hn => ?_⟩
  · rw [State.charsEnded_endpos hfits, hndata]
    congr 2
    omega
  · rw [hndata] at hn
    show (Memory.read (s.framerAt f j).text n).isSome = true
    rw [State.framerAt, Memory.read_writeFrom_zero]
    simp [hn]

end Chars

/-! ## The stages -/

section Stages
variable {s t : State}

theorem execDetect_inv (hq : s.seq = .accepted) (h : execDetect s = .next t) (hs : s.Inv) : t.Inv := by
  obtain ⟨hparam, hbuffer, hresult, hacc⟩ := hs
  rw [State.resultInv, hq] at hresult
  obtain ⟨htrk, -, hvalid, hsspos, hunpublished, hlate⟩ := hresult
  obtain ⟨f, hf, -⟩ := State.withFormat_next h
  have hforward : s.copyRaw.bufferInv := State.copyRaw_bufferInv hparam hbuffer
  have hboth : s.copyRaw.copyRawReversed.bufferInv := State.copyRawReversed_bufferInv (s := s.copyRaw) hparam hforward
  have hfound (hseq : t.seq = .directionDetected) : ∃ p, t.normalize.locateInWork f = some p := by
    rw [State.normalize_locate]
    exact (execDetect_leaves_normalized hf h hseq).2.1
  rcases execDetect_cases hf with ⟨_, _, e⟩ | ⟨_, _, _, e⟩ | ⟨_, _, e⟩ <;> rw [e] at h <;> cases h
  · exact ⟨hparam, hforward, ⟨nofun, hvalid, hsspos, hunpublished, hlate, f, (hfound rfl).imp fun _ => .intro hf⟩, hacc⟩
  · exact ⟨hparam, hboth, ⟨nofun, hvalid, hsspos, hunpublished, hlate, f, (hfound rfl).imp fun _ => .intro hf⟩, hacc⟩
  · exact ⟨hparam, hboth, ⟨htrk, rfl, rfl, hlate, .inl ⟨rfl, rfl, hsspos, rfl⟩⟩, hacc⟩

theorem execNormloc_inv (hq : s.seq = .directionDetected) (h : execNormloc s = .next t) (hs : s.Inv) : t.Inv := by
  obtain ⟨hparam, hbuffer, hresult, hacc⟩ := hs
  rw [State.resultInv, hq] at hresult
  obtain ⟨hdir, hvalid, -, hunpublished, hlate, -⟩ := hresult
  obtain ⟨f, hf, -⟩ := State.withFormat_next h
  have hnormalized : s.normalize.bufferInv := State.normalize_bufferInv hparam hbuffer
  rcases execNormloc_cases hf with ⟨p, hp, e⟩ | ⟨_, e⟩ <;> rw [e] at h <;> cases h
  have hpos : (s.normalize.located p).sspos.toNat = p := State.located_sspos_toNat _ hp
  obtain ⟨w, hw⟩ : ∃ w, s.normalize = { s with work := w } := ⟨_, s.normalize_eq⟩
  rw [hw] at hp hpos hnormalized ⊢
  exact ⟨hparam, hnormalized, ⟨hdir, hvalid, hunpublished, hlate, f, hf, hp.trans (congrArg some hpos.symm)⟩, hacc⟩

theorem execDecodeChars_inv (hq : s.seq = .sentinelFound) (h : execDecodeChars s = .next t) (hs : s.Inv) : t.Inv := by
  obtain ⟨hparam, hbuffer, hresult, hacc⟩ := hs
  rw [State.resultInv, hq] at hresult
  obtain ⟨hdir, hvalid, hunpublished, hlate, -⟩ := hresult
  obtain ⟨f, j, hf, hpassed, ⟨why, hwhy, rfl⟩ | ⟨hfits, hj, rfl⟩⟩ := execDecodeChars_next_cases h
  · have htrk : s.trk ≠ .noTrack := by rintro e; rw [e] at hf; cases hf
    exact ⟨hparam, State.framerAt_text_bufferInv hparam hbuffer hpassed,
      ⟨htrk, rfl, rfl, hlate, .inr ⟨hwhy, hdir⟩⟩, hacc⟩
  · obtain ⟨-, hlrc, -, -⟩ := hlate
    have hend : (s.charsEnded f j).endpos.toNat ≤ s.count.toNat := (State.charsEnded_endpos hfits).trans_le hfits
    exact ⟨hparam, State.framerAt_text_bufferInv hparam hbuffer hpassed,
      ⟨hvalid, hlrc, hunpublished, f, hf, State.charsEnded_charsReady hdir hpassed hfits hj, hend⟩,
      State.charsEnded_accInv hf⟩

theorem execLrcCheck_inv (hq : s.seq = .charactersDecoded) (h : execLrcCheck s = .next t) (hs : s.Inv) : t.Inv := by
  obtain ⟨hparam, hbuffer, hresult, hacc⟩ := hs
  rw [State.resultInv, hq] at hresult
  obtain ⟨-, -, hunpublished, f, hf, hready, hend⟩ := hresult
  rw [execLrcCheck_eq hf] at h
  cases h
  exact ⟨hparam, hbuffer, ⟨hunpublished, f, hf, hready, hend, rfl, rfl⟩, hacc⟩

/-- VALID = 1 needs an LRC frame (45_lrc_engine.md R164). -/
theorem State.lrcPresent_of_lrcMatch {f : Format} (h : s.lrcMatch f = true) : s.lrcPresent f = true :=
  (Bool.and_eq_true_iff.1 h).1

theorem execPublish_inv (hq : s.seq = .checksumChecked) (h : execPublish s = .next t) (hs : s.Inv) : t.Inv := by
  obtain ⟨hparam, hbuffer, hresult, hacc⟩ := hs
  rw [State.resultInv, hq] at hresult
  obtain ⟨⟨-, -, herridx⟩, f, hf, hready, -, hlrc, hvalid⟩ := hresult
  cases h
  have hpresent (hv : s.valid = true) : s.lrc.getLsbD 7 = true := by
    rw [hlrc, lrcLayout_present]
    exact State.lrcPresent_of_lrcMatch (hvalid.symm.trans hv)
  exact ⟨hparam, hbuffer, ⟨rfl, herridx, rfl, hpresent, f, hf, hready⟩, hacc⟩

theorem step_engine_inv (hturn : s.nextTurn = some .engine) (h : step s = .next t) (hs : s.Inv) : t.Inv := by
  have hpop : s.popTurn.Inv := State.inv_of_block_eq s.popTurn_block hs
  rcases step_engine_cases hturn h with ⟨_, rfl⟩ | ⟨hq, h⟩ | ⟨hq, h⟩ | ⟨hq, h⟩ | ⟨hq, h⟩ | ⟨hq, h⟩
  · exact hpop
  · exact execDetect_inv (s := s.popTurn) hq h hpop
  · exact execNormloc_inv (s := s.popTurn) hq h hpop
  · exact execDecodeChars_inv (s := s.popTurn) hq h hpop
  · exact execLrcCheck_inv (s := s.popTurn) hq h hpop
  · exact execPublish_inv (s := s.popTurn) hq h hpop

end Stages

/-- Settles O44: by whose turn it is. -/
theorem everyStepKeepsTheInvariant : Obligations.EveryStepKeepsTheInvariant := by
  intro s t hs h
  cases hturn : s.nextTurn with
  | none =>
    rw [step_nobody hturn] at h
    cases h
    exact hs
  | some turn =>
    cases turn with
    | engine => exact step_engine_inv hturn h hs
    | ext => exact step_ext_inv hturn h hs
    | reset =>
      rw [step_reset hturn] at h
      cases h
      exact State.resetBlock_inv (State.inv_of_block_eq s.popTurn_block hs)

end Sys2Proof.Machine

/-! PROOFS. A decode call left to the ENGINE (46_sequencer.md R173, R178): with nothing scheduled each step is the selected
stage's, and the call is followed from its end back to the acceptance. -/

namespace Sys2Proof.Machine

/-- k steps end the call in DONE or FAILED, and every state before is busy. -/
def State.EndsAfter (k : Nat) (s : State) : Prop :=
  ∃ t, RunsTo k s t ∧ (t.seq = .done ∨ t.seq = .failed) ∧ ∀ j u, j < k → RunsTo j s u → u.busy = true

section Call
variable {s u : State} {f : Format}

theorem State.endsAfter_zero (h : s.seq = .done ∨ s.seq = .failed) : s.EndsAfter 0 :=
  ⟨s, .refl s, h, fun _ _ hj => absurd hj (Nat.not_lt_zero _)⟩

/-- A busy state ends one step after the state that follows it. -/
theorem State.EndsAfter.succ {k : Nat} (hbusy : s.busy = true) (h : step s = .next u) (hk : u.EndsAfter k) :
    s.EndsAfter (k + 1) := by
  obtain ⟨t, hrun, hend, hbefore⟩ := hk
  refine ⟨t, .head h hrun, hend, fun j v hj hv => ?_⟩
  cases j with
  | zero => cases hv; exact hbusy
  | succ j => exact hbefore j v (Nat.lt_of_succ_lt_succ hj) ((run_succ core h j).symm.trans hv)

/-- With nothing scheduled the selected stage runs (30_encoding.md R90, log 19). -/
theorem State.endsAfter_stage {i : Instr} {k : Nat} (hs : s.schedule = []) (hd : decodeStage s.seq.code = .ok i)
    (h : exec i s = .next u) (hk : u.EndsAfter k) : s.EndsAfter (k + 1) := by
  have hbusy : s.busy = true := by
    by_contra hn
    rw [decodeStage_code_of_not_busy (Bool.eq_false_iff.2 hn)] at hd
    cases hd
  exact hk.succ hbusy ((step_engine_ok (.inr ⟨hs, hs, hbusy⟩) hd).trans h)

theorem State.endsAfter_of_checksumChecked (hs : s.schedule = []) (hq : s.seq = .checksumChecked) : s.EndsAfter 1 :=
  State.endsAfter_stage hs (i := .publish) (by rw [hq]; rfl) rfl (State.endsAfter_zero (.inl rfl))

theorem State.endsAfter_of_charactersDecoded (hs : s.schedule = []) (hf : s.trk.format = some f)
    (hq : s.seq = .charactersDecoded) : s.EndsAfter 2 :=
  State.endsAfter_stage hs (i := .lrcCheck) (by rw [hq]; rfl) (execLrcCheck_eq hf)
    (State.endsAfter_of_checksumChecked hs rfl)

/-- DECODE_CHARS fails, or two stages follow. -/
theorem State.endsAfter_of_sentinelFound (hs : s.schedule = []) (hf : s.trk.format = some f) (hq : s.seq = .sentinelFound) :
    s.EndsAfter 1 ∨ s.EndsAfter 3 := by
  have hd : decodeStage s.seq.code = .ok .decodeChars := by rw [hq]; rfl
  rcases execDecodeChars_cases hf with ⟨r, _, h⟩ | ⟨why, r, _, h⟩
  · exact .inr (State.endsAfter_stage hs hd h (State.endsAfter_of_charactersDecoded hs hf rfl))
  · exact .inl (State.endsAfter_stage hs hd h (State.endsAfter_zero (.inr rfl)))

/-- NORMLOC does not fail where LOCATE finds a sentinel in the normalized bits (43_sentinel_locator.md R136). -/
theorem State.endsAfter_of_directionDetected {p : Nat} (hs : s.schedule = []) (hf : s.trk.format = some f)
    (hq : s.seq = .directionDetected) (hp : locate s.normalizedBit s.count.toNat f = some p) :
    s.EndsAfter 2 ∨ s.EndsAfter 4 := by
  have ends {k : Nat} : (s.normalize.located p).EndsAfter k → s.EndsAfter (k + 1) :=
    State.endsAfter_stage hs (i := .normloc) (by rw [hq]; rfl) (execNormloc_of_found hf hp)
  have hs' : (s.normalize.located p).schedule = [] := s.normalize_schedule.trans hs
  have hf' : (s.normalize.located p).trk.format = some f := by simpa using hf
  exact (State.endsAfter_of_sentinelFound hs' hf' rfl).imp ends ends

/-- DETECT fails, or it leaves a sentinel that NORMLOC finds again. -/
theorem State.endsAfter_of_accepted (hs : s.schedule = []) (hf : s.trk.format = some f) (hq : s.seq = .accepted) :
    s.EndsAfter 1 ∨ s.EndsAfter 3 ∨ s.EndsAfter 5 := by
  have hd : decodeStage s.seq.code = .ok .detect := by rw [hq]; rfl
  have goesOn {t : State} (h : execDetect s = .next t) (hseq : t.seq = .directionDetected) :
      s.EndsAfter 3 ∨ s.EndsAfter 5 := by
    obtain ⟨htrk, ⟨p, hp⟩, -⟩ := execDetect_leaves_normalized hf h hseq
    have hschedule : t.schedule = s.schedule := (congrArg State.schedule (execDetect_outside h) :)
    have ends {k : Nat} : t.EndsAfter k → s.EndsAfter (k + 1) := State.endsAfter_stage hs hd h
    exact (State.endsAfter_of_directionDetected (hschedule.trans hs) (htrk ▸ hf) hseq hp).imp ends ends
  rcases execDetect_cases hf with ⟨_, _, h⟩ | ⟨_, _, _, h⟩ | ⟨_, _, h⟩
  · exact .inr (goesOn h rfl)
  · exact .inr (goesOn h rfl)
  · exact .inl (State.endsAfter_stage hs hd h (State.endsAfter_zero (.inr rfl)))

end Call

/-- Settles O46: the call fails in DETECT, fails in DECODE_CHARS, or passes all five stages. -/
theorem decodeCallEndsInOneThreeOrFiveSteps : Obligations.DecodeCallEndsInOneThreeOrFiveSteps := by
  intro s hq htrk hs
  obtain ⟨f, hf⟩ := Option.ne_none_iff_exists'.1 (mt TrackCode.format_eq_none.1 htrk)
  rcases State.endsAfter_of_accepted hs hf hq with ⟨t, h⟩ | ⟨t, h⟩ | ⟨t, h⟩
  · exact ⟨1, t, .inl rfl, h⟩
  · exact ⟨3, t, .inr (.inl rfl), h⟩
  · exact ⟨5, t, .inr (.inr rfl), h⟩

end Sys2Proof.Machine

/-! PROOFS. The host transactions one by one: RD while BUSY = 0 and after reset, DECODE, and the accesses of COUNT, RAW and TEXT
(47_host_commands.md R190 to R195). -/

namespace Sys2Proof.Machine

section Commands
variable {s : State}

/-! ## RD and DECODE while BUSY = 0 (R190, R191) -/

theorem readResult_not_busy (v : Reg) (h : s.busy = false) : s.readResult v = .next (s.returnRead v) :=
  if_neg (Bool.eq_false_iff.1 h)

theorem startDecode_not_busy (k : TrackCode) (h : s.busy = false) : s.startDecode k = .next (s.accept k) :=
  if_neg (Bool.eq_false_iff.1 h)

/-- The layout of R25, at BUSY = 0. -/
theorem State.statusWord_not_busy (h : s.busy = false) :
    s.statusWord =
      0#4 ++ s.trk.code ++ BitVec.ofBool s.valid ++ s.dir.code ++ s.reason.code ++ 0#1 ++ s.seq.code := by
  rw [State.statusWord, h]
  rfl

/-! ## The writes of COUNT and RAW in range while BUSY = 0 (R192, R193) -/

theorem not_busy_or {p : Prop} (hbusy : s.busy = false) (hp : ¬ p) : ¬ (s.busy = true ∨ p) :=
  not_or.2 ⟨Bool.eq_false_iff.1 hbusy, hp⟩

/-! ## RDTEXT by the two guards of R195 -/

theorem State.textReadable_iff {n : Nat} :
    s.textReadable n = true ↔ s.seq = .done ∧ (n : Int) < s.length.toInt := by
  simp [State.textReadable]

theorem execRdText_readable {n : Reg} (hcap : n.toNat < s.outCap) (hread : s.textReadable n.toNat = true) :
    execRdText n s = .next (s.returnRead ((s.textByte n.toNat).setWidth 16)) :=
  congrArg _ ((if_neg (Nat.not_le.2 hcap)).trans (if_pos hread))

theorem execRdText_draws {n : Reg} (hcap : n.toNat < s.outCap) (hread : ¬ s.textReadable n.toNat = true) :
    execRdText n s = .next ((s.useDraws 1).returnRead (freeBits 16 s.draws)) :=
  congrArg _ ((if_neg (Nat.not_le.2 hcap)).trans (if_neg hread))

/-! ## RDRAW by whether the bit was written (R194) -/

/-- A bit, zero extended to a register. -/
theorem setWidth_ofBool (b : Bool) : (BitVec.ofBool b).setWidth 16 = if b = true then (1 : Reg) else 0 := by
  cases b <;> rfl

theorem State.rawBit_written {i : Nat} {b : Bool} (h : Memory.read s.raw i = some b) : s.rawBit i = b := by
  rw [State.rawBit, h, Option.getD_some]

theorem State.rawBit_unwritten {i : Nat} (h : Memory.read s.raw i = none) : s.rawBit i = Config.rawAtReset s.resets i := by
  rw [State.rawBit, h, Option.getD_none]

/-- Below CAP the read returns 1 or 0, as the bit is. -/
theorem execRdRaw_returns_bit {i : Reg} {b : Bool} (hcap : i.toNat < s.cap) (hb : s.rawBit i.toNat = b) :
    execRdRaw i s = .next (s.returnRead (if b = true then 1 else 0)) := by
  rw [execRdRaw_returns hcap, hb, setWidth_ofBool]

end Commands

/-- Settles O27: RAW is read through the one bit written. -/
theorem rawWriteStoresOneBit : Obligations.RawWriteStoresOneBit := by
  intro s i b
  refine ⟨execWrRaw_refused b, fun hbusy hcap => ?_⟩
  have hread (j : Nat) := s.withRaw_write_rawBit i.toNat j b
  exact ⟨_, execWrRaw_stored b (not_busy_or hbusy (Nat.not_le.2 hcap)), rfl, (hread _).trans (if_pos rfl),
    fun j hj => (hread j).trans (if_neg hj), fun hwf => Memory.wf_write hwf _ _⟩

/-- Settles O22: STATUS by its layout, the result registers by their shared read. -/
theorem registerReadsWhenNotBusy : Obligations.RegisterReadsWhenNotBusy := by
  intro s h
  refine ⟨rfl, ?_, rfl, readResult_not_busy s.length h, readResult_not_busy s.erridx h, readResult_not_busy s.sspos h,
    readResult_not_busy s.endpos h, readResult_not_busy s.lrc h⟩
  rw [← State.statusWord_not_busy h]
  exact execRdStatus_not_busy h

/-- Settles O24: each DECODE is the acceptance of its track. -/
theorem decodeIsAcceptedWhenNotBusy : Obligations.DecodeIsAcceptedWhenNotBusy := by
  rintro s i t h (⟨rfl, rfl⟩ | ⟨rfl, rfl⟩ | ⟨rfl, rfl⟩)
  · exact startDecode_not_busy .t1 h
  · exact startDecode_not_busy .t2 h
  · exact startDecode_not_busy .t3 h

/-- Settles O26: the refused write and the stored one. -/
theorem countWriteStoresUpToCapacity : Obligations.CountWriteStoresUpToCapacity := fun _ _ =>
  ⟨execWrCount_refused, fun hbusy hcap => execWrCount_stored (not_busy_or hbusy (Nat.not_lt.2 hcap))⟩

/-- Settles O28: the bit read is the one written, or the one the reset drew. -/
theorem rawReadReturnsTheBitOrItsDraw : Obligations.RawReadReturnsTheBitOrItsDraw := fun _ _ =>
  ⟨execRdRaw_refused, fun _ hcap hread => execRdRaw_returns_bit hcap (State.rawBit_written hread),
    fun hcap hread => execRdRaw_returns_bit hcap (State.rawBit_unwritten hread)⟩

/-- Settles O29: the byte where both guards hold, a draw where one fails. -/
theorem textReadIsDefinedInDoneBelowLength : Obligations.TextReadIsDefinedInDoneBelowLength := by
  intro s n
  refine ⟨execRdText_refused, fun hcap hdone hlen => ?_, fun hcap hnot => ?_⟩
  · exact execRdText_readable hcap (State.textReadable_iff.2 ⟨hdone, hlen⟩)
  · refine execRdText_draws hcap fun hread => ?_
    obtain ⟨hdone, hlen⟩ := State.textReadable_iff.1 hread
    exact hnot.elim (· hdone) (not_le.2 hlen)

/-- Settles O35: reset is IDLE with every register 0, so each read is the one of O22. -/
theorem everyRegisterReadsZeroAfterReset : Obligations.EveryRegisterReadsZeroAfterReset := by
  obtain ⟨hcmd, hstatus, hcount, hlength, herridx, hsspos, hendpos, hlrc⟩ := registerReadsWhenNotBusy State.reset rfl
  refine ⟨?_, rfl, Config.one_le_cap, Config.cap_le⟩
  rintro i (rfl | rfl | rfl | rfl | rfl | rfl | rfl | rfl)
  · exact hcmd
  · exact hstatus
  · exact hcount
  · exact hlength
  · exact herridx
  · exact hsspos
  · exact hendpos
  · exact hlrc

end Sys2Proof.Machine

/-! PROOFS. Track 3 decodes like track 2 (47_host_commands.md R190 corner case 4). A stage reads TRK through its format alone, so
its outcome under another track of the same format is the same, with that track. -/

namespace Sys2Proof.Machine

/-- The state with another latched track. -/
def State.withTrk (k : TrackCode) (s : State) : State := { s with trk := k }

section WithTrk
variable {k : TrackCode} {s t : State}

theorem State.withTrk_normalize (k : TrackCode) (s : State) : (s.withTrk k).normalize = s.normalize.withTrk k := by
  cases s with
  | mk _ _ dir => cases dir <;> rfl

@[simp] theorem State.withTrk_locateInWork (f : Format) : (s.withTrk k).locateInWork f = s.locateInWork f := rfl
@[simp] theorem State.withTrk_frameChars (f : Format) : (s.withTrk k).frameChars f = s.frameChars f := rfl

/-- Tracks of one format select the same constants (10_state.md R31). -/
theorem State.withTrk_withFormat (h : s.trk.format = k.format) {c c' : Format → Result}
    (hc : ∀ f, c' f = mapNext (State.withTrk k) (c f)) :
    (s.withTrk k).withFormat c' = mapNext (State.withTrk k) (s.withFormat c) := by
  cases hf : k.format with
  | none => rw [State.withFormat_none (h.trans hf), State.withFormat_none (s := s.withTrk k) hf, mapNext_fault]
  | some f => rw [State.withFormat_some (h.trans hf), State.withFormat_some (s := s.withTrk k) hf, hc]

/-! ## The stages -/

theorem execDetect_withTrk (h : s.trk.format = k.format) :
    execDetect (s.withTrk k) = mapNext (State.withTrk k) (execDetect s) := by
  refine State.withTrk_withFormat h fun f => ?_
  rw [show (s.withTrk k).copyRaw = s.copyRaw.withTrk k from rfl,
    show (s.copyRaw.withTrk k).copyRawReversed = s.copyRaw.copyRawReversed.withTrk k from rfl,
    State.withTrk_locateInWork, State.withTrk_locateInWork]
  cases s.copyRaw.locateInWork f with
  | some p => rfl
  | none => cases s.copyRaw.copyRawReversed.locateInWork f <;> rfl

theorem execNormloc_withTrk (h : s.trk.format = k.format) :
    execNormloc (s.withTrk k) = mapNext (State.withTrk k) (execNormloc s) := by
  refine State.withTrk_withFormat h fun f => ?_
  rw [State.withTrk_normalize, State.withTrk_locateInWork]
  cases s.normalize.locateInWork f <;> rfl

theorem execDecodeChars_withTrk (h : s.trk.format = k.format) :
    execDecodeChars (s.withTrk k) = mapNext (State.withTrk k) (execDecodeChars s) := by
  refine State.withTrk_withFormat h fun f => ?_
  rw [State.withTrk_frameChars]
  cases s.frameChars f <;> rfl

theorem execLrcCheck_withTrk (h : s.trk.format = k.format) :
    execLrcCheck (s.withTrk k) = mapNext (State.withTrk k) (execLrcCheck s) :=
  State.withTrk_withFormat h fun _ => rfl

theorem exec_stage_withTrk {i : Instr} (hi : hostInstr i = false) (h : s.trk.format = k.format) :
    exec i (s.withTrk k) = mapNext (State.withTrk k) (exec i s) := by
  cases i with
  | detect => exact execDetect_withTrk h
  | normloc => exact execNormloc_withTrk h
  | decodeChars => exact execDecodeChars_withTrk h
  | lrcCheck => exact execLrcCheck_withTrk h
  | publish => rfl
  | rdCmd | rdStatus | rdCount | rdLength | rdErridx | rdSspos | rdEndpos | rdLrc | decodeT1 | decodeT2 | decodeT3
    | wrCount | wrRaw | rdRaw | rdText => cases hi

/-- The run under the other track; no stage writes TRK, so the formats stay equal along it. -/
theorem engineRun_withTrk {n : Nat} (h : s.trk.format = k.format) (hrun : engineRun n s = .next t) :
    engineRun n (s.withTrk k) = .next (t.withTrk k) := by
  induction n generalizing s with
  | zero => cases hrun; rfl
  | succ n ih =>
    rcases engineRun_succ_cases hrun with ⟨rfl, e, hd⟩ | ⟨i, u, hd, hi, hrun⟩
    · exact engineRun_succ_error (s := t.withTrk k) hd n
    · have hstage : hostInstr i = false := hostInstr_of_decodeStage hd
      have htrk : u.trk = s.trk := (congrArg State.trk (exec_stage_outside hstage hi) :)
      have hi' : exec i (s.withTrk k) = .next (u.withTrk k) := by rw [exec_stage_withTrk hstage h, hi, mapNext_next]
      rw [engineRun_succ_ok (s := s.withTrk k) hd hi']
      exact ih (htrk ▸ h) hrun

end WithTrk

/-- Settles O56: tracks 2 and 3 have one format. -/
theorem trackThreeDecodesLikeTrackTwo : Obligations.TrackThreeDecodesLikeTrackTwo :=
  fun _ s _ h => engineRun_withTrk (s := { s with trk := .t2 }) (k := .t3) rfl h

end Sys2Proof.Machine

/-! PROOFS. A buffer's bits as a list: its frames, data fields and LOCATE are those of the source's lists (00_scope.md R10,
43_sentinel_locator.md R130, 44_character_framer.md R141). -/

namespace Sys2Proof.Machine

/-! ## Windows of a bit sequence -/

theorem bitsOf_succ_cons (bit : Nat → Bool) (n : Nat) :
    bitsOf bit (n + 1) = bit 0 :: bitsOf (fun i => bit (i + 1)) n := by
  simp [bitsOf, List.range_succ_eq_map, Function.comp_def]

theorem drop_bitsOf (bit : Nat → Bool) (n p : Nat) : (bitsOf bit n).drop p = bitsOf (fun i => bit (p + i)) (n - p) :=
  List.ext_getElem (by simp) fun i _ _ => by simp [bitsOf]

theorem take_bitsOf (bit : Nat → Bool) {n k : Nat} (h : k ≤ n) : (bitsOf bit n).take k = bitsOf bit k :=
  List.ext_getElem (by simpa using h) fun i _ _ => by simp [bitsOf]

/-- The window of k bits at p, where it lies whole within the n bits. -/
theorem take_drop_bitsOf (bit : Nat → Bool) {n p k : Nat} (h : p + k ≤ n) :
    ((bitsOf bit n).drop p).take k = bitsOf (fun i => bit (p + i)) k := by
  rw [drop_bitsOf, take_bitsOf _ (by omega)]

/-! ## Frames and data fields as the values of lists (R10) -/

theorem bitsValue_bitsOf (bit : Nat → Bool) (p W : Nat) :
    bitsValue (bitsOf (fun i => bit (p + i)) W) = frameSum bit p W := by
  induction W generalizing p with
  | zero => rfl
  | succ W ih =>
    have hbits : (fun i => bit (p + (i + 1))) = fun i => bit (p + 1 + i) :=
      funext fun i => by rw [Nat.add_right_comm, Nat.add_assoc]
    rw [bitsOf_succ_cons, bitsValue, hbits, ih, frameSum_succ, Nat.bit_val, Nat.add_zero, Nat.add_comm]

theorem Format.dataBits_le (f : Format) : f.dataBits ≤ 6 := by cases f <;> decide

/-- DATA of a frame is the value of the frame's first D bits. -/
theorem toNat_dataField_frame (bit : Nat → Bool) (p : Nat) (f : Format) :
    (dataField (frame bit p f.width) f.dataBits).toNat = bitsValue (bitsOf (fun i => bit (p + i)) f.dataBits) := by
  have hD := f.dataBits_le
  have hW := f.width_eq
  refine Nat.eq_of_testBit_eq fun i => ?_
  rw [bitsValue_bitsOf, testBit_frameSum, BitVec.testBit_toNat, dataField, BitVec.getLsbD_setWidth, BitVec.getLsbD_setWidth]
  by_cases hi : i < f.dataBits
  · rw [getLsbD_frame bit p f.width_le (by omega), decide_eq_true hi, decide_eq_true (hi.trans_le hD), Bool.true_and]
  · rw [decide_eq_false hi, Bool.false_and, Bool.false_and, Bool.and_false]

theorem frame_eq_bitsValue (bit : Nat → Bool) (p W : Nat) :
    frame bit p W = BitVec.ofNat 7 (bitsValue (bitsOf (fun i => bit (p + i)) W)) := by
  rw [frame, bitsValue_bitsOf]

theorem bitsOf_sourceChar (f : Format) (v : Nat) :
    bitsOf (fun i => (sourceChar f v).getD (0 + i) false) f.width = sourceChar f v := by
  simpa [length_sourceChar] using bitsOf_getD (sourceChar f v)

/-- A frame is the character of a value when its bits are. -/
theorem frame_eq_charOf_iff {bit : Nat → Bool} {p v : Nat} {f : Format} :
    frame bit p f.width = charOf f v ↔ bitsOf (fun i => bit (p + i)) f.width = sourceChar f v := by
  constructor
  · intro h
    rw [← bitsOf_sourceChar]
    refine bitsOf_congr fun i hi => ?_
    rw [← getLsbD_frame bit p f.width_le hi, h, getLsbD_charOf v hi, Nat.zero_add]
  · intro h
    rw [charOf, frame_eq_bitsValue, frame_eq_bitsValue, bitsOf_sourceChar, h]

/-! ## LOCATE by the first window (R131) -/

theorem locate_succ (bit : Nat → Bool) (n : Nat) (f : Format) :
    locate bit (n + 1) f =
      if f.width ≤ n + 1 ∧ sentinelAt bit f 0 = true then some 0
      else (locate (fun i => bit (i + 1)) n f).map (· + 1) := by
  have hnext : sentinelAt bit f ∘ Nat.succ = sentinelAt (fun i => bit (i + 1)) f := funext fun p => by
    have hframe : frame bit (p + 1) f.width = frame (fun i => bit (i + 1)) p f.width := by
      simp [frame, frameSum, Nat.add_right_comm]
    exact congrArg (fun c => dataField c f.dataBits == f.ss) hframe
  by_cases hw : f.width ≤ n + 1
  · have hlen : n + 1 + 1 - f.width = n + 1 - f.width + 1 := by omega
    rw [locate, hlen, List.range_succ_eq_map, List.find?_cons, List.find?_map, hnext, ← locate]
    cases h : sentinelAt bit f 0 <;> simp [hw]
  · have hlen : n + 1 + 1 - f.width = 0 := by omega
    have hlen' : n + 1 - f.width = 0 := by omega
    simp [locate, hw, hlen, hlen']

/-- The first window of the list is the frame at 0. -/
theorem bitsValue_take_eq_ss_iff {bit : Nat → Bool} {n : Nat} {f : Format} (h : f.width ≤ n) :
    bitsValue ((bitsOf bit n).take f.dataBits) = f.ss.toNat ↔ sentinelAt bit f 0 = true := by
  have hW := f.width_eq
  have hdata := toNat_dataField_frame bit 0 f
  simp only [Nat.zero_add] at hdata
  rw [take_bitsOf bit (by omega), ← hdata, sentinelAt_iff, BitVec.toNat_inj]

/-- The source's search answers the rest of the sequence from LOCATE's offset on. -/
theorem sourceLocate_bitsOf (bit : Nat → Bool) (n : Nat) (f : Format) :
    sourceLocate f (bitsOf bit n) = (locate bit n f).map (bitsOf bit n).drop := by
  induction n generalizing bit with
  | zero =>
    have hlen : 0 + 1 - f.width = 0 := by have := f.five_le_width; omega
    simp [bitsOf, sourceLocate, locate, hlen]
  | succ n ih =>
    have hcons := bitsOf_succ_cons bit n
    have hiff :
        (f.width ≤ (bitsOf bit (n + 1)).length ∧ bitsValue ((bitsOf bit (n + 1)).take f.dataBits) = f.ss.toNat) ↔
          f.width ≤ n + 1 ∧ sentinelAt bit f 0 = true := by
      rw [length_bitsOf]
      exact and_congr_right bitsValue_take_eq_ss_iff
    rw [locate_succ, hcons, sourceLocate, ← hcons, ih]
    by_cases h : f.width ≤ n + 1 ∧ sentinelAt bit f 0 = true
    · rw [if_pos (hiff.2 h), if_pos h, Option.map_some, List.drop_zero]
    · rw [if_neg (mt hiff.1 h), if_neg h, Option.map_map, hcons]
      rfl

end Sys2Proof.Machine

/-! PROOFS. DECODE_CHARS and LRC_CHECK compute what the source computes on the rest of WORK from SSPOS on (44_character_framer.md
R146 to R150, 45_lrc_engine.md R160 to R164). -/

namespace Sys2Proof.Machine

section Source
variable {s : State} {f : Format} {j k : Nat}

/-! ## The rest of WORK from a character index on -/

/-- The valid bits of WORK from character index k on. -/
def State.restBits (s : State) (f : Format) (k : Nat) : List Bool :=
  (bitsOf s.workBit s.count.toNat).drop (s.sspos.toNat + k * f.width)

theorem State.length_restBits (s : State) (f : Format) (k : Nat) :
    (s.restBits f k).length = s.count.toNat - (s.sspos.toNat + k * f.width) := by
  simp [State.restBits]

/-- The rest after the character at index k. -/
theorem State.drop_restBits (s : State) (f : Format) (k : Nat) :
    (s.restBits f k).drop f.width = s.restBits f (k + 1) := by
  rw [State.restBits, List.drop_drop, State.restBits, Nat.succ_mul, Nat.add_assoc]

theorem State.charFits_iff_restBits : s.charFits f k ↔ ¬ (s.restBits f k).length < f.width := by
  have hw := f.width_pos
  rw [State.length_restBits, State.charFits, Nat.succ_mul]
  omega

/-- The first W bits of the rest are the frame at index k. -/
theorem State.take_restBits (h : s.charFits f k) {m : Nat} (hm : m ≤ f.width) :
    (s.restBits f k).take m = bitsOf (fun i => s.workBit (s.sspos.toNat + k * f.width + i)) m := by
  rw [State.charFits, Nat.succ_mul] at h
  exact take_drop_bitsOf _ (by omega)

theorem State.bitsOdd_restBits (h : s.charFits f k) :
    bitsOdd ((s.restBits f k).take f.width) = oddParity (s.charFrame f k) f.width := by
  rw [State.take_restBits h le_rfl, State.charFrame, oddParity_frame _ _ f.width_le]

theorem State.bitsValue_restBits (h : s.charFits f k) :
    bitsValue ((s.restBits f k).take f.dataBits) = (s.charValue f k).toNat := by
  rw [State.take_restBits h (by rw [f.width_eq]; omega), State.charValue, State.charFrame, toNat_dataField_frame]

/-! ## One character of the source (R146) -/

theorem sourceChars_truncated (fuel : Nat) (h : ¬ s.charFits f k) :
    sourceChars f fuel (s.restBits f k) = .failed .truncated := by
  cases fuel with
  | zero => rfl
  | succ fuel => rw [sourceChars, if_pos (not_not.1 (mt State.charFits_iff_restBits.2 h))]

/-- A character that fits, by its parity and its value. -/
theorem sourceChars_of_fits (fuel : Nat) (h : s.charFits f k) :
    sourceChars f (fuel + 1) (s.restBits f k) =
      if oddParity (s.charFrame f k) f.width = true then
        if s.charValue f k = f.es then .text [] (s.restBits f (k + 1))
        else (sourceChars f fuel (s.restBits f (k + 1))).push (s.charValue f k).toNat
      else .failed .parityError := by
  rw [sourceChars, if_neg (State.charFits_iff_restBits.1 h), State.bitsOdd_restBits h, State.bitsValue_restBits h,
    State.drop_restBits]
  cases oddParity (s.charFrame f k) f.width <;> simp [BitVec.toNat_inj]

/-! ## The characters from index 1 on -/

/-- The values of the data characters at indices 1 to n. -/
def State.dataValues (s : State) (f : Format) (n : Nat) : List Nat :=
  (List.range n).map fun i => (s.charValue f (i + 1)).toNat

theorem State.dataValues_succ (s : State) (f : Format) (n : Nat) :
    s.dataValues f (n + 1) = s.dataValues f n ++ [(s.charValue f (n + 1)).toNat] := by
  simp [State.dataValues, List.range_succ]

/-- Data values in front of an outcome. -/
def SourceChars.prepend (vs : List Nat) (c : SourceChars) : SourceChars := vs.foldr SourceChars.push c

theorem SourceChars.prepend_failed (vs : List Nat) (why : Reason) : prepend vs (.failed why) = .failed why := by
  induction vs with
  | nil => rfl
  | cons v vs ih => exact congrArg (push v) ih

theorem SourceChars.prepend_text (vs : List Nat) (rest : List Bool) : prepend vs (.text [] rest) = .text vs rest := by
  induction vs with
  | nil => rfl
  | cons v vs ih => exact congrArg (push v) ih

/-- The characters passed are the values in front of what the source reads after them. -/
theorem sourceChars_passed (fuel n : Nat) (h : ∀ i, i < n → s.charPassed f (i + 1)) :
    sourceChars f (fuel + n) (s.restBits f 1) =
      (sourceChars f fuel (s.restBits f (n + 1))).prepend (s.dataValues f n) := by
  induction n generalizing fuel with
  | zero => rfl
  | succ n ih =>
    obtain ⟨hfits, hodd, hes⟩ := h n n.lt_succ_self
    have hstep := sourceChars_of_fits fuel hfits
    rw [if_pos hodd, if_neg (hes n.succ_pos)] at hstep
    rw [← Nat.add_assoc, Nat.add_right_comm, ih (fuel + 1) fun i hi => h i (hi.trans n.lt_succ_self), hstep,
      State.dataValues_succ, SourceChars.prepend, SourceChars.prepend, List.foldr_append]
    rfl

/-! ## The whole sequence from the start sentinel on (R145) -/

/-- The source's loop has a character to spare for each index up to the end. -/
theorem sourceFrames_of_passed (hpassed : ∀ i, i < j + 1 → s.charPassed f i) :
    ∃ fuel, sourceFrames f (s.restBits f 0) =
      (sourceChars f (fuel + 1) (s.restBits f (j + 1))).prepend (s.dataValues f j) := by
  obtain ⟨hfits, hodd, -⟩ := hpassed 0 j.succ_pos
  have hlen : j + 1 ≤ (s.restBits f 0).length := by
    rw [State.length_restBits, Nat.zero_mul]
    exact (State.index_le_of_passed hpassed).trans (Nat.div_le_self _ _)
  obtain ⟨fuel, hfuel⟩ : ∃ fuel, (s.restBits f 0).length = fuel + 1 + j :=
    ⟨(s.restBits f 0).length - (j + 1), by omega⟩
  refine ⟨fuel, ?_⟩
  rw [sourceFrames, State.bitsOdd_restBits hfits, hodd, hfuel, State.drop_restBits]
  exact sourceChars_passed (fuel + 1) j fun i hi => hpassed (i + 1) (Nat.succ_lt_succ hi)

/-- Past the start sentinel, the source fails for want of bits where DECODE_CHARS does (R147). -/
theorem sourceFrames_truncated (hss : s.charFits f 0) (hpassed : ∀ i, i < j → s.charPassed f i)
    (hfits : ¬ s.charFits f j) : sourceFrames f (s.restBits f 0) = .failed .truncated := by
  cases j with
  | zero => exact absurd hss hfits
  | succ j =>
    obtain ⟨fuel, h⟩ := sourceFrames_of_passed hpassed
    rw [h, sourceChars_truncated _ hfits, SourceChars.prepend_failed]

/-- The source fails at an even frame, the start sentinel's among them (R145, R148). -/
theorem sourceFrames_parityError (hpassed : ∀ i, i < j → s.charPassed f i) (hfits : s.charFits f j)
    (heven : oddParity (s.charFrame f j) f.width = false) : sourceFrames f (s.restBits f 0) = .failed .parityError := by
  cases j with
  | zero =>
    rw [sourceFrames, State.bitsOdd_restBits hfits, heven]
    rfl
  | succ j =>
    obtain ⟨fuel, h⟩ := sourceFrames_of_passed hpassed
    rw [h, sourceChars_of_fits _ hfits, heven, if_neg Bool.false_ne_true, SourceChars.prepend_failed]

/-- The source ends at the end sentinel with the data values before it (R144). -/
theorem sourceFrames_ended (hpassed : ∀ i, i < j + 1 → s.charPassed f i) (hfits : s.charFits f (j + 1))
    (hodd : oddParity (s.charFrame f (j + 1)) f.width = true) (hes : s.charValue f (j + 1) = f.es) :
    sourceFrames f (s.restBits f 0) = .text (s.dataValues f j) (s.restBits f (j + 2)) := by
  obtain ⟨fuel, h⟩ := sourceFrames_of_passed hpassed
  rw [h, sourceChars_of_fits _ hfits, if_pos hodd, if_pos hes, SourceChars.prepend_text]

/-! ## The text and the LRC character of the data values (R143, R160, R161) -/

theorem State.charBytes_eq_dataValues (s : State) (f : Format) (n : Nat) :
    s.charBytes f n = (s.dataValues f n).map fun v => BitVec.ofNat 8 (v + f.off.toNat) := by
  rw [State.charBytes, State.dataValues, List.map_map]
  refine List.map_congr_left fun i _ => ?_
  rw [Function.comp_apply, ← toNat_asciiByte, BitVec.ofNat_toNat, BitVec.setWidth_eq]

/-- ACC is the XOR that the source takes over the data values (R160). -/
theorem State.toNat_xorOfChars (s : State) (f : Format) (n : Nat) :
    (s.xorOfChars f n).toNat = (s.dataValues f n).foldl (· ^^^ ·) 0 := by
  induction n with
  | zero => rfl
  | succ n ih =>
    rw [State.xorOfChars, BitVec.toNat_xor, ih, State.dataValues_succ, List.foldl_append]
    rfl

theorem lrcData_of_lt {acc : DataVal} (h : acc.toNat < 2 ^ f.dataBits) : lrcData f acc = acc := by
  refine BitVec.eq_of_toNat_eq ?_
  rw [lrcData, BitVec.toNat_setWidth, BitVec.toNat_setWidth, Nat.mod_eq_of_lt h, Nat.mod_eq_of_lt acc.isLt]

/-- LRC_EXP on the XOR of the data values is the source's LRC character. -/
theorem State.sourceLrc_dataValues (s : State) (f : Format) (n : Nat) :
    sourceLrc f (s.dataValues f n) = sourceChar f (lrcData f (s.xorOfChars f n)).toNat := by
  rw [lrcData_of_lt (s.toNat_xorOfChars_lt f n), State.toNat_xorOfChars]
  rfl

/-! ## LRC_CHECK on what DECODE_CHARS left (R162 to R164) -/

theorem State.charsEnded_workBit (s : State) (f : Format) (j : Nat) : (s.charsEnded f j).workBit = s.workBit :=
  State.workBit_eq rfl rfl

/-- The bits compared are those after the end sentinel; too few of them are no match. -/
theorem State.charsEnded_lrcMatch (hfits : s.charFits f (j + 1)) :
    (s.charsEnded f (j + 1)).lrcMatch f =
      ((s.restBits f (j + 2)).take f.width == sourceLrc f (s.dataValues f j)) := by
  have hend : (s.charsEnded f (j + 1)).endpos.toNat = s.sspos.toNat + (j + 2) * f.width := State.charsEnded_endpos hfits
  have hacc : (s.charsEnded f (j + 1)).acc = s.xorOfChars f j := rfl
  have hpresent : (s.charsEnded f (j + 1)).lrcPresent f = true ↔ s.charFits f (j + 2) := by
    rw [State.lrcPresent_iff, hend, State.charFits, Nat.succ_mul (j + 2), Nat.add_assoc]
    rfl
  rw [Bool.eq_iff_iff, beq_iff_eq, s.sourceLrc_dataValues f j]
  by_cases hlrc : s.charFits f (j + 2)
  · rw [State.lrcMatch_of_present (hpresent.2 hlrc), hend, hacc, s.charsEnded_workBit, lrcExpected_eq_charOf,
      frame_eq_charOf_iff, State.take_restBits hlrc le_rfl]
  · have hshort : ((s.restBits f (j + 2)).take f.width).length < f.width :=
      (List.length_take_le' _ _).trans_lt (not_not.1 (mt State.charFits_iff_restBits.2 hlrc))
    rw [State.lrcMatch_of_absent (Bool.eq_false_iff.2 (mt hpresent.1 hlrc))]
    exact ⟨nofun, fun h => absurd ((congrArg List.length h).trans (length_sourceChar f _)) hshort.ne⟩

end Source

end Sys2Proof.Machine

/-! PROOFS. The run of the ENGINE computes the source's decode(raw_bits, track) (47_host_commands.md R190, R197): the result of
each stage's state, from the end of the call back to the acceptance. -/

namespace Sys2Proof.Machine

/-- k steps of the ENGINE end the call with the DecodeResult r. -/
def State.DecodesTo (k : Nat) (s : State) (r : DecodeResult) : Prop :=
  ∃ t, engineRun k s = .next t ∧ t.busy = false ∧ t.decodeResult = r

section Refinement
variable {s u : State} {f : Format} {j k : Nat} {r : DecodeResult}

/-- Where no stage is selected the ENGINE rests. -/
theorem State.decodesTo_rest (h : s.busy = false) (k : Nat) : s.DecodesTo k s.decodeResult := by
  refine ⟨s, ?_, h, rfl⟩
  cases k with
  | zero => rfl
  | succ k => exact engineRun_succ_error (decodeStage_code_of_not_busy h) k

/-- The selected stage goes first. -/
theorem State.DecodesTo.stage {i : Instr} (h : u.DecodesTo k r) (hd : decodeStage s.seq.code = .ok i)
    (hi : exec i s = .next u) : s.DecodesTo (k + 1) r := by
  obtain ⟨t, hrun, hend⟩ := h
  exact ⟨t, (engineRun_succ_ok hd hi k).trans hrun, hend⟩

/-- What LRC_CHECK and PUBLISH make of the characters decoded: TEXT and NDATA as text and length, and the verdict of the
comparison (R164, R174). -/
def State.verifiedResult (s : State) (f : Format) : DecodeResult where
  asciiText := some ((List.range s.ndata.toNat).map s.textByte)
  length := s.ndata.toInt
  direction := s.dir
  valid := s.lrcMatch f
  reason := if s.lrcMatch f then .noReason else .checksumMismatch

theorem State.decodesTo_of_charactersDecoded (hf : s.trk.format = some f) (hq : s.seq = .charactersDecoded) :
    s.DecodesTo 2 (s.verifiedResult f) :=
  .stage (.stage (State.decodesTo_rest rfl 0) rfl rfl) (i := .lrcCheck) (by rw [hq]; rfl) (execLrcCheck_eq hf)

/-- The source's result on a text, in terms of what DECODE_CHARS left. -/
theorem State.charsEnded_sourceResult (hpassed : ∀ i, i < j + 1 → s.charPassed f i) (hfits : s.charFits f (j + 1))
    (hsource : sourceFrames f (s.restBits f 0) = .text (s.dataValues f j) (s.restBits f (j + 2))) :
    sourceResult f s.dir (s.restBits f 0) = (s.charsEnded f (j + 1)).verifiedResult f := by
  have hndata : (s.charsEnded f (j + 1)).ndata.toNat = j := State.charsEnded_ndata hpassed
  have htext : (List.range j).map (s.charsEnded f (j + 1)).textByte = s.charBytes f j :=
    List.map_congr_left fun n hn => by
      have hn : n + 1 < j + 1 := Nat.succ_lt_succ (List.mem_range.1 hn)
      exact (State.framerAt_textByte (t := s.charsEnded f (j + 1)) (j := j + 1) rfl rfl n).1 hn
  have hlength : (s.charsEnded f (j + 1)).ndata.toInt = (s.dataValues f j).length := by
    have hle : (j + 1) * f.width ≤ s.count.toNat := (Nat.le_add_left _ _).trans (hpassed j j.lt_succ_self).1
    have hmul : (j + 1) * 5 ≤ (j + 1) * f.width := Nat.mul_le_mul_left _ f.five_le_width
    have hcount := s.count.isLt
    rw [BitVec.toInt_eq_toNat_of_lt (by omega), hndata, State.dataValues, List.length_map, List.length_range]
  rw [sourceResult, hsource, State.verifiedResult, hndata, htext, hlength, State.charsEnded_lrcMatch hfits,
    s.charBytes_eq_dataValues f j]
  rfl

/-- DECODE_CHARS fails with the source's reason, or its text is the source's. -/
theorem State.decodesTo_of_sentinelFound (hf : s.trk.format = some f) (hq : s.seq = .sentinelFound) (hss : s.charFits f 0) :
    s.DecodesTo 3 (sourceResult f s.dir (s.restBits f 0)) := by
  have hd : decodeStage s.seq.code = .ok .decodeChars := by rw [hq]; rfl
  have fails (why : Reason) (j : Nat) (hsource : sourceFrames f (s.restBits f 0) = .failed why)
      (h : execDecodeChars s = .next (s.charsFailed why f j)) :
      s.DecodesTo 3 (sourceResult f s.dir (s.restBits f 0)) := by
    rw [sourceResult, hsource]
    exact .stage (State.decodesTo_rest rfl 2) hd h
  obtain ⟨j, hpassed, hend⟩ := s.frameChars_end f
  rcases execDecodeChars_of_charsEnd hf hend with ⟨hfits, h⟩ | ⟨hfits, heven, h⟩ | ⟨hfits, hodd, h1, hes, h⟩
  · exact fails _ j (sourceFrames_truncated hss hpassed hfits) h
  · exact fails _ j (sourceFrames_parityError hpassed hfits heven) h
  · obtain ⟨j, rfl⟩ : ∃ m, j = m + 1 := Nat.exists_eq_succ_of_ne_zero (Nat.one_le_iff_ne_zero.1 h1)
    rw [State.charsEnded_sourceResult hpassed hfits (sourceFrames_ended hpassed hfits hodd hes)]
    exact .stage (State.decodesTo_of_charactersDecoded hf rfl) hd h

/-- NORMLOC leaves in WORK the normalized sequence and in SSPOS its leftmost sentinel (R135). -/
theorem State.decodesTo_of_directionDetected {p : Nat} (hf : s.trk.format = some f) (hq : s.seq = .directionDetected)
    (hp : locate s.normalizedBit s.count.toNat f = some p) :
    s.DecodesTo 4 (sourceResult f s.dir ((bitsOf s.normalizedBit s.count.toNat).drop p)) := by
  have hsspos : (s.normalize.located p).sspos.toNat = p := State.located_sspos_toNat _ hp
  have hcount : (s.normalize.located p).count = s.count := s.normalize_count
  have hdir : (s.normalize.located p).dir = s.dir := s.normalize_dir
  have hf' : (s.normalize.located p).trk.format = some f := by simpa using hf
  have hss : (s.normalize.located p).charFits f 0 := by
    rw [State.charFits, hsspos, hcount, Nat.zero_add, Nat.one_mul]
    exact locate_lt hp
  have hrest : (s.normalize.located p).restBits f 0 = (bitsOf s.normalizedBit s.count.toNat).drop p := by
    rw [State.restBits, hsspos, hcount, Nat.zero_mul, Nat.add_zero]
    exact congrArg (List.drop p) (bitsOf_congr fun _ => s.normalize_workBit)
  rw [← hrest, ← hdir]
  exact .stage (State.decodesTo_of_sentinelFound hf' rfl hss) (i := .normloc) (by rw [hq]; rfl) (execNormloc_of_found hf hp)

/-- The source's search in the reversed bits is LOCATE on REVERSE (R112). -/
theorem sourceLocate_reverse_bitsOf (bit : Nat → Bool) (n : Nat) (f : Format) :
    sourceLocate f (bitsOf bit n).reverse =
      (locate (fun i => bit (n - 1 - i)) n f).map (bitsOf (fun i => bit (n - 1 - i)) n).drop := by
  rw [← reverseBits_eq_reverse]
  exact sourceLocate_bitsOf _ n f

/-- DETECT's three outcomes are the source's: forward, backward, no sentinel (R110). -/
theorem State.decodesTo_of_accepted (hf : s.trk.format = some f) (hq : s.seq = .accepted) :
    s.DecodesTo 5 (sourceDecode f (bitsOf s.rawBit s.count.toNat)) := by
  have hd : decodeStage s.seq.code = .ok .detect := by rw [hq]; rfl
  rw [sourceDecode, sourceLocate_bitsOf, sourceLocate_reverse_bitsOf]
  rcases execDetect_cases hf with ⟨p, hp, h⟩ | ⟨hfwd, p, hp, h⟩ | ⟨hfwd, hback, h⟩
  · have hbit : (s.copyRaw.detected .forward).normalizedBit = s.rawBit := State.normalizedBit_not_backward nofun
    have hnext := State.decodesTo_of_directionDetected (s := s.copyRaw.detected .forward) (p := p) hf rfl (hbit ▸ hp)
    rw [hbit] at hnext
    rw [hp]
    exact hnext.stage hd h
  · have hbit : (s.copyRaw.copyRawReversed.detected .backward).normalizedBit =
        fun i => s.rawBit (s.count.toNat - 1 - i) := State.normalizedBit_backward rfl
    have hnext := State.decodesTo_of_directionDetected (s := s.copyRaw.copyRawReversed.detected .backward) (p := p) hf rfl
      (hbit ▸ hp)
    rw [hbit] at hnext
    rw [hfwd, hp]
    exact hnext.stage hd h
  · rw [hfwd, hback]
    exact .stage (State.decodesTo_rest rfl 4) hd h

end Refinement

/-- Settles O47: from DETECT's three outcomes on, each stage keeps to the source's result. -/
theorem engineRefinesTheSourceDecode : Obligations.EngineRefinesTheSourceDecode :=
  fun _ _ hq hf => State.decodesTo_of_accepted hf hq

end Sys2Proof.Machine

/-! PROOFS. MSTD never faults or becomes stuck (60_exceptions.md R211): a host transaction answers a next state in every state, and
under the invariant so does the stage that STATUS.STATE selects, since a track is latched and NORMLOC has a sentinel to find. -/

namespace Sys2Proof.Machine

section Answers
variable {s : State} {f : Format} {i : Instr}

/-! ## The stages under a latched track (10_state.md R31) -/

theorem execDetect_answers (hf : s.trk.format = some f) : ∃ t, execDetect s = .next t := by
  rcases execDetect_cases hf with ⟨_, _, h⟩ | ⟨_, _, _, h⟩ | ⟨_, _, h⟩
  · exact ⟨_, h⟩
  · exact ⟨_, h⟩
  · exact ⟨_, h⟩

theorem execDecodeChars_answers (hf : s.trk.format = some f) : ∃ t, execDecodeChars s = .next t := by
  rcases execDecodeChars_cases hf with ⟨_, _, h⟩ | ⟨_, _, _, h⟩
  · exact ⟨_, h⟩
  · exact ⟨_, h⟩

/-- Each clause of the invariant for a busy state names the format; that of DIRECTION_DETECTED also holds the sentinel that NORMLOC
looks for (43_sentinel_locator.md R136). -/
theorem exec_selectedStage_answers (hs : s.Inv) (hd : decodeStage s.seq.code = .ok i) : ∃ t, exec i s = .next t := by
  obtain ⟨-, -, hresult, -⟩ := hs
  rcases decodeStage_code s.seq with ⟨_, e⟩ | ⟨hq, e⟩ | ⟨hq, e⟩ | ⟨hq, e⟩ | ⟨hq, e⟩ | ⟨hq, e⟩ <;> rw [hd] at e <;> cases e <;>
    rw [State.resultInv, hq] at hresult
  · obtain ⟨htrk, -⟩ := hresult
    obtain ⟨f, hf⟩ := Option.ne_none_iff_exists'.1 (mt TrackCode.format_eq_none.1 htrk)
    exact execDetect_answers hf
  · obtain ⟨-, -, -, -, -, f, p, hf, hp⟩ := hresult
    exact ⟨_, execNormloc_of_found hf (s.normalize_locate f ▸ hp)⟩
  · obtain ⟨-, -, -, -, f, hf, -⟩ := hresult
    exact execDecodeChars_answers hf
  · obtain ⟨-, -, -, f, hf, -⟩ := hresult
    exact ⟨_, execLrcCheck_eq hf⟩
  · exact ⟨_, publishWritesLengthAndReason s⟩

/-! ## The host transactions (47_host_commands.md R196: a refusal is a next state) -/

/-- Of the two outcomes of a transaction neither is a stop. -/
theorem exec_host_answers (hi : hostInstr i = true) (s : State) : ∃ t, exec i s = .next t := by
  rcases exec_keeps_or_clearsEngine s hi with ⟨t, h⟩ | ⟨t, -, h⟩
  · exact ⟨_, h s.work s.acc s.ndata⟩
  · exact ⟨_, h s.work s.acc s.ndata⟩

/-! ## The step by whose turn it is -/

theorem step_engine_answers (hturn : s.nextTurn = some .engine) (hs : s.Inv) : ∃ t, step s = .next t := by
  rw [step, State.nextMove_engine hturn, State.engineMove]
  cases hd : decodeStage s.popTurn.seq.code with
  | error e => exact ⟨_, rfl⟩
  | ok i => exact exec_selectedStage_answers (State.inv_of_block_eq s.popTurn_block hs) hd

/-- EXT's turn needs no invariant. -/
theorem step_ext_answers (hturn : s.nextTurn = some .ext) : ∃ t, step s = .next t := by
  rw [step, State.nextMove_ext hturn]
  cases hp : s.popTurn.program with
  | nil => rw [State.extMove, hp]; exact ⟨_, rfl⟩
  | cons op ops =>
    rw [State.extMove_cons hp]
    rcases State.hostMove_cases op s.popTurn.popProgram with ⟨e, _, hm⟩ | ⟨i, hi, hm⟩
    · rw [hm]
      exact ⟨_, rfl⟩
    · obtain ⟨u, hu⟩ := exec_host_answers (hostInstr_of_decodeHt35 hi) s.popTurn.popProgram
      rcases hm with hm | hm
      · rw [hm]
        exact ⟨u, hu⟩
      · rw [hm]
        exact ⟨u.resume op, congrArg (resumeOutcome op) hu⟩

end Answers

/-- Settles O45: only the ENGINE's turn can stop, and the invariant rules that out. -/
theorem invariantStatesNeverStop : Obligations.InvariantStatesNeverStop := by
  intro s hs
  cases hturn : s.nextTurn with
  | none => exact ⟨s, step_nobody hturn⟩
  | some turn =>
    cases turn with
    | engine => exact step_engine_answers hturn hs
    | ext => exact step_ext_answers hturn
    | reset => exact ⟨_, step_reset hturn⟩

end Sys2Proof.Machine

/-! PROOFS. The encoding: the words of the encoder under the decoder, the rows of the opcode table by the fields of a word, and the
words that name no instruction (30_encoding.md sections 1, 2, 5, 6). -/

namespace Sys2Proof

/-! ## The decoder by SPACE and RW (R80) -/

section Spaces
variable {w : Ht35}

theorem decodeHt35_of_read (hspace : ht35Space w ≠ 3) (hrw : ht35Rw w = 0) :
    decodeHt35 w = decodeRead (ht35Space w) (ht35Addr w) (ht35Data w) :=
  (if_neg hspace).trans (if_pos hrw)

theorem decodeHt35_of_write (hspace : ht35Space w ≠ 3) (hrw : ht35Rw w = 1) :
    decodeHt35 w = decodeWrite (ht35Space w) (ht35Addr w) (ht35Data w) :=
  (if_neg hspace).trans (if_neg (by rw [hrw]; decide))

theorem decodeHt35_of_regRead (hspace : ht35Space w = 0) (hrw : ht35Rw w = 0) (hdata : ht35Data w = 0) :
    decodeHt35 w = decodeRegRead (ht35Addr w) := by
  rw [decodeHt35_of_read (by rw [hspace]; decide) hrw, hspace, hdata]
  rfl

theorem decodeHt35_of_regWrite (hspace : ht35Space w = 0) (hrw : ht35Rw w = 1) :
    decodeHt35 w = decodeRegWrite (ht35Addr w) (ht35Data w) := by
  rw [decodeHt35_of_write (by rw [hspace]; decide) hrw, hspace]
  rfl

theorem decodeHt35_of_rawRead (hspace : ht35Space w = 1) (hrw : ht35Rw w = 0) (hdata : ht35Data w = 0) :
    decodeHt35 w = .ok (.rdRaw (ht35Addr w)) := by
  rw [decodeHt35_of_read (by rw [hspace]; decide) hrw, hspace, hdata]
  rfl

theorem decodeHt35_of_rawWrite (hspace : ht35Space w = 1) (hrw : ht35Rw w = 1) :
    decodeHt35 w =
      if (ht35Data w).extractLsb' 1 15 ≠ 0 then .error .badRawData
      else .ok (.wrRaw (ht35Addr w) ((ht35Data w).getLsbD 0)) := by
  rw [decodeHt35_of_write (by rw [hspace]; decide) hrw, hspace]
  rfl

theorem decodeHt35_of_textRead (hspace : ht35Space w = 2) (hrw : ht35Rw w = 0) (hdata : ht35Data w = 0) :
    decodeHt35 w = .ok (.rdText (ht35Addr w)) := by
  rw [decodeHt35_of_read (by rw [hspace]; decide) hrw, hspace, hdata]
  rfl

theorem decodeHt35_of_textWrite (hspace : ht35Space w = 2) (hrw : ht35Rw w = 1) :
    decodeHt35 w = .error .textWrite := by
  rw [decodeHt35_of_write (by rw [hspace]; decide) hrw, hspace]
  rfl

end Spaces

/-- Settles O1: the words without an operand by their values, those with one by the fields that the encoder fills. -/
theorem decodeOfEncodeIsTheInstruction : Obligations.DecodeOfEncodeIsTheInstruction := by
  intro i
  cases i with
  | rdCmd | rdStatus | rdCount | rdLength | rdErridx | rdSspos | rdEndpos | rdLrc => decide
  | decodeT1 | decodeT2 | decodeT3 => decide
  | wrCount n => exact Machine.decodeHt35_wrCountWord n
  | wrRaw a b => exact Machine.decodeHt35_wrRawWord a b
  | rdRaw a =>
    refine (decodeHt35_of_rawRead (w := ht35Word 0 1 a 0) ?_ ?_ ?_).trans ?_ <;> simp
  | rdText n =>
    refine (decodeHt35_of_textRead (w := ht35Word 0 2 n 0) ?_ ?_ ?_).trans ?_ <;> simp
  | detect | normloc | decodeChars | lrcCheck | publish => decide

/-- Settles O6: the words are literals. -/
theorem tableWordsDecodeAsWritten : Obligations.TableWordsDecodeAsWritten := by
  unfold Obligations.TableWordsDecodeAsWritten
  decide

/-! ## Words that name no instruction (R91) -/

section Rejections
variable {w : Ht35} {addr data c : Reg}

theorem decodeRegRead_reserved (h : 8 ≤ addr.toNat) : decodeRegRead addr = .error .reservedRegister := by
  unfold decodeRegRead
  split
  case h_9 => rfl
  all_goals omega

theorem decodeRegWrite_reserved (h : 8 ≤ addr.toNat) : decodeRegWrite addr data = .error .reservedRegister := by
  have h0 : addr ≠ 0 := by rintro rfl; exact absurd h (by decide)
  have h2 : addr ≠ 2 := by rintro rfl; exact absurd h (by decide)
  rw [decodeRegWrite, if_neg h0, if_neg h2, if_neg (by omega)]

theorem decodeRegWrite_readOnly (h : addr.toNat < 8) (h0 : addr ≠ 0) (h2 : addr ≠ 2) :
    decodeRegWrite addr data = .error .readOnlyRegister := by
  rw [decodeRegWrite, if_neg h0, if_neg h2, if_pos (Nat.le_of_lt_succ h)]

theorem cmdReservedHigh_eq_zero_iff : cmdReservedHigh c = 0 ↔ c.toNat / 256 = 0 := by
  have hc := c.isLt
  rw [cmdReservedHigh, ← BitVec.toNat_inj, BitVec.extractLsb'_toNat, Nat.shiftRight_eq_div_pow]
  show c.toNat / 2 ^ 8 % 2 ^ 8 = 0 ↔ _
  omega

theorem cmdReservedLow_eq_zero_iff : cmdReservedLow c = 0 ↔ c.toNat / 4 % 4 = 0 := by
  rw [cmdReservedLow, ← BitVec.toNat_inj, BitVec.extractLsb'_toNat, Nat.shiftRight_eq_div_pow]
  rfl

theorem cmdOp_eq_one_iff : cmdOp c = 1 ↔ c.toNat / 16 % 16 = 1 := by
  rw [cmdOp, ← BitVec.toNat_inj, BitVec.extractLsb'_toNat, Nat.shiftRight_eq_div_pow]
  rfl

theorem decodeCommand_reserved (h : c.toNat / 256 ≠ 0 ∨ c.toNat / 4 % 4 ≠ 0 ∨ c.toNat / 16 % 16 ≠ 1) :
    decodeCommand c = .error .reservedCommand := by
  rw [Ne, Ne, Ne, ← cmdReservedHigh_eq_zero_iff, ← cmdReservedLow_eq_zero_iff, ← cmdOp_eq_one_iff] at h
  exact if_pos h

theorem extractLsb'_one_ne_zero (h : 2 ≤ data.toNat) : data.extractLsb' 1 15 ≠ 0 := by
  have hdata := data.isLt
  rw [Ne, ← BitVec.toNat_inj, BitVec.extractLsb'_toNat, Nat.shiftRight_eq_div_pow]
  show ¬ data.toNat / 2 ^ 1 % 2 ^ 15 = 0
  omega

end Rejections

/-- Settles O5: the rejections of each space and direction. -/
theorem refusedEncodingsAreRejectedByName : Obligations.RefusedEncodingsAreRejectedByName := by
  intro w
  refine ⟨fun hspace => if_pos hspace, fun hspace hrw hdata => ?_, fun hspace hrw hdata haddr => ?_,
    fun hspace hrw haddr => ?_, fun hspace hrw haddr h0 h2 => ?_, fun hspace hrw haddr hcmd => ?_,
    fun hspace hrw haddr hcmd => ?_, fun hspace hrw hdata => ?_, fun hspace hrw => decodeHt35_of_textWrite hspace hrw⟩
  · rw [decodeHt35_of_read hspace hrw]
    exact if_pos hdata
  · rw [decodeHt35_of_regRead hspace hrw hdata, decodeRegRead_reserved haddr]
  · rw [decodeHt35_of_regWrite hspace hrw, decodeRegWrite_reserved haddr]
  · rw [decodeHt35_of_regWrite hspace hrw, decodeRegWrite_readOnly haddr h0 h2]
  · rw [decodeHt35_of_regWrite hspace hrw, haddr]
    exact decodeCommand_reserved hcmd
  · rw [decodeHt35_of_regWrite hspace hrw, haddr, hcmd]
    rfl
  · rw [decodeHt35_of_rawWrite hspace hrw, if_pos (extractLsb'_one_ne_zero hdata)]

/-! ## Rows of the opcode table -/

/-- Two rows that differ where both masks look: the bits that both fix disagree. -/
def OpcodeRow.apart (r r' : OpcodeRow) : Prop := r.matchBits &&& r'.maskBits ≠ r'.matchBits &&& r.maskBits

/-- A word that fits two rows shows both matches where both masks look. -/
theorem OpcodeRow.apart.not_fits {r r' : OpcodeRow} {w : Nat} (h : r.apart r') (hr : r.fits w = true) :
    ¬ r'.fits w = true := by
  intro hr'
  rw [OpcodeRow.fits, beq_iff_eq] at hr hr'
  exact h (by rw [← hr, ← hr', Nat.and_right_comm])

/-- Of rows that are pairwise apart a word fits at most one. -/
theorem length_filter_fits_le_one {rows : List OpcodeRow} (h : rows.Pairwise OpcodeRow.apart) (w : Nat) :
    (rows.filter (·.fits w)).length ≤ 1 := by
  induction rows with
  | nil => exact Nat.zero_le 1
  | cons r rows ih =>
    obtain ⟨hr, hrows⟩ := List.pairwise_cons.1 h
    by_cases hfits : r.fits w = true
    · have hnone : rows.filter (·.fits w) = [] :=
        List.filter_eq_nil_iff.2 fun r' hr' => (hr r' hr').not_fits hfits
      simp [hfits, hnone]
    · simpa [hfits] using ih hrows

theorem ht35Rows_apart : ht35Rows.Pairwise OpcodeRow.apart := by
  unfold OpcodeRow.apart
  decide

theorem stageRows_apart : stageRows.Pairwise OpcodeRow.apart := by
  unfold OpcodeRow.apart
  decide

/-- Settles O4: the rows of each format are pairwise apart. -/
theorem noWordFitsTwoTableRows : Obligations.NoWordFitsTwoTableRows := by
  rintro (w | c)
  · exact length_filter_fits_le_one ht35Rows_apart _
  · exact length_filter_fits_le_one stageRows_apart _

/-! ## The words of the rows are the words that decode (section 1) -/

/-- The instruction's word fits the instruction's row. -/
theorem exists_row_of_encode (i : Instr) : Laws.TableRow.Statement i := by
  cases i with
  | rdCmd => exact Laws.TableRow.rdCmd
  | rdStatus => exact Laws.TableRow.rdStatus
  | rdCount => exact Laws.TableRow.rdCount
  | rdLength => exact Laws.TableRow.rdLength
  | rdErridx => exact Laws.TableRow.rdErridx
  | rdSspos => exact Laws.TableRow.rdSspos
  | rdEndpos => exact Laws.TableRow.rdEndpos
  | rdLrc => exact Laws.TableRow.rdLrc
  | decodeT1 => exact Laws.TableRow.decodeT1
  | decodeT2 => exact Laws.TableRow.decodeT2
  | decodeT3 => exact Laws.TableRow.decodeT3
  | wrCount n => exact Laws.TableRow.wrCount n
  | wrRaw a b => exact Laws.TableRow.wrRaw a b
  | rdRaw a => exact Laws.TableRow.rdRaw a
  | rdText n => exact Laws.TableRow.rdText n
  | detect => exact Laws.TableRow.detect
  | normloc => exact Laws.TableRow.normloc
  | decodeChars => exact Laws.TableRow.decodeChars
  | lrcCheck => exact Laws.TableRow.lrcCheck
  | publish => exact Laws.TableRow.publish

section Rows
variable {w : Ht35} {r : OpcodeRow}

/-- A word that fits a row whose mask looks at all of RW and SPACE, field by field. -/
theorem OpcodeRow.fields_of_fits (h : r.fits w.toNat = true) {rw : BitVec 1} {space : BitVec 2}
    {addr data addrMask dataMask : Reg} (hmask : BitVec.ofNat 35 r.maskBits = ht35Word 1 3 addrMask dataMask)
    (hmatch : BitVec.ofNat 35 r.matchBits = ht35Word rw space addr data) :
    ht35Rw w = rw ∧ ht35Space w = space ∧ ht35Addr w &&& addrMask = addr ∧ ht35Data w &&& dataMask = data := by
  rw [OpcodeRow.fits, beq_iff_eq] at h
  have hand : w &&& BitVec.ofNat 35 r.maskBits = BitVec.ofNat 35 r.matchBits := by
    rw [← h, BitVec.ofNat_and, BitVec.ofNat_toNat, BitVec.setWidth_eq]
  rw [hmask, hmatch, ← ht35Word_fields w, ht35Word_and, show (1 : BitVec 1) = BitVec.allOnes 1 from rfl,
    show (3 : BitVec 2) = BitVec.allOnes 2 from rfl, BitVec.and_allOnes, BitVec.and_allOnes] at hand
  exact ⟨by simpa using congrArg ht35Rw hand, by simpa using congrArg ht35Space hand,
    by simpa using congrArg ht35Addr hand, by simpa using congrArg ht35Data hand⟩

/-- A row without an operand fixes every bit. -/
theorem OpcodeRow.eq_of_fits_whole (h : r.fits w.toNat = true) (hmask : r.maskBits = 0x7FFFFFFFF) :
    w = BitVec.ofNat 35 r.matchBits := by
  rw [OpcodeRow.fits, beq_iff_eq, hmask, show 0x7FFFFFFFF = 2 ^ 35 - 1 from rfl,
    Nat.and_two_pow_sub_one_of_lt_two_pow w.isLt] at h
  rw [← h, BitVec.ofNat_toNat, BitVec.setWidth_eq]

/-- The matches of the rows without an operand decode. -/
theorem decodes_of_whole_row :
    ∀ r ∈ ht35Rows, r.maskBits = 0x7FFFFFFFF → (decodeHt35 (BitVec.ofNat 35 r.matchBits)).toBool = true := by decide

/-- The rows with an operand. -/
theorem eq_of_row_with_operand (hr : r ∈ ht35Rows) (hmask : r.maskBits ≠ 0x7FFFFFFFF) :
    r = ⟨"WR_COUNT", 0x400020000, 0x7FFFF0000⟩ ∨ r = ⟨"WRRAW", 0x500000000, 0x70000FFFE⟩ ∨
      r = ⟨"RDRAW", 0x100000000, 0x70000FFFF⟩ ∨ r = ⟨"RDTEXT", 0x200000000, 0x70000FFFF⟩ := by
  revert r
  decide

/-- A mask over all 16 bits of a field takes the whole field. -/
theorem and_ffff (d : Reg) : d &&& 0xFFFF = d := BitVec.and_allOnes

/-- A mask over DATA[15:1] that finds nothing leaves these bits 0. -/
theorem extractLsb'_one_of_and {data : Reg} (h : data &&& 0xFFFE = 0) : data.extractLsb' 1 15 = 0 := by
  have h := congrArg (BitVec.extractLsb' 1 15) h
  rwa [BitVec.extractLsb'_and, show BitVec.extractLsb' 1 15 (0xFFFE : Reg) = BitVec.allOnes 15 from rfl,
    BitVec.and_allOnes] at h

/-- Each row's words decode: the rows with an operand by their fixed fields. -/
theorem decodes_of_fits (hr : r ∈ ht35Rows) (h : r.fits w.toNat = true) : ∃ i, decodeHt35 w = .ok i := by
  by_cases hmask : r.maskBits = 0x7FFFFFFFF
  · rw [OpcodeRow.eq_of_fits_whole h hmask]
    have hok := decodes_of_whole_row r hr hmask
    cases hd : decodeHt35 (BitVec.ofNat 35 r.matchBits) with
    | ok i => exact ⟨i, rfl⟩
    | error e => rw [hd] at hok; cases hok
  · rcases eq_of_row_with_operand hr hmask with rfl | rfl | rfl | rfl
    · obtain ⟨hrw, hspace, haddr, -⟩ := OpcodeRow.fields_of_fits h (addrMask := 0xFFFF) (dataMask := 0)
        (rw := 1) (space := 0) (addr := 2) (data := 0) rfl rfl
      exact ⟨.wrCount (ht35Data w), by rw [decodeHt35_of_regWrite hspace hrw, ← and_ffff (ht35Addr w), haddr]; rfl⟩
    · obtain ⟨hrw, hspace, -, hdata⟩ := OpcodeRow.fields_of_fits h (addrMask := 0) (dataMask := 0xFFFE)
        (rw := 1) (space := 1) (addr := 0) (data := 0) rfl rfl
      exact ⟨_, by rw [decodeHt35_of_rawWrite hspace hrw, if_neg (not_not.2 (extractLsb'_one_of_and hdata))]⟩
    · obtain ⟨hrw, hspace, -, hdata⟩ := OpcodeRow.fields_of_fits h (addrMask := 0) (dataMask := 0xFFFF)
        (rw := 0) (space := 1) (addr := 0) (data := 0) rfl rfl
      exact ⟨_, decodeHt35_of_rawRead hspace hrw ((and_ffff _).symm.trans hdata)⟩
    · obtain ⟨hrw, hspace, -, hdata⟩ := OpcodeRow.fields_of_fits h (addrMask := 0) (dataMask := 0xFFFF)
        (rw := 0) (space := 2) (addr := 0) (data := 0) rfl rfl
      exact ⟨_, decodeHt35_of_textRead hspace hrw ((and_ffff _).symm.trans hdata)⟩

end Rows

/-- Settles O3: what decodes is encoded in its row, and each row's words decode. -/
theorem hostWordDecodesIffItFitsATableRow : Obligations.HostWordDecodesIffItFitsATableRow := by
  refine fun w => ⟨fun ⟨i, hi⟩ => ?_, fun ⟨r, hr, h⟩ => decodes_of_fits hr h⟩
  obtain ⟨r, hr, -⟩ := exists_row_of_encode i
  rw [encode_of_decodeHt35 hi, rowsFitting, List.mem_filter] at hr
  exact ⟨r, hr⟩

end Sys2Proof

/-! PROOFS. The host transactions while BUSY = 1 (70_reset_and_hazards.md R236, R237, 47_host_commands.md R191) and the reset turn
(70_reset_and_hazards.md R230, R231). -/

namespace Sys2Proof.Machine

/-- The field VALID of STATUS, of one bit (R25). -/
theorem statusLayout_validField (trk : BitVec 2) (valid : BitVec 1) (dir : BitVec 2) (reason : BitVec 3) (busy : Bool)
    (state : BitVec 3) : (statusLayout trk valid dir reason busy state).extractLsb' 9 1 = valid := by
  apply BitVec.eq_of_toNat_eq
  have hstate := state.isLt; have hbusy := busy.toNat_lt; have hreason := reason.isLt; have hdir := dir.isLt
  have hvalid := valid.isLt
  rw [BitVec.extractLsb'_toNat, toNat_statusLayout, Nat.shiftRight_eq_div_pow]
  omega

section Busy
variable {s : State}

theorem readResult_busy (v : Reg) (h : s.busy = true) :
    s.readResult v = .next ((s.useDraws 1).returnRead (freeBits 16 s.draws)) := if_pos h

theorem startDecode_busy (k : TrackCode) (h : s.busy = true) : s.startDecode k = .next s.refuse := if_pos h

/-- A byte of TEXT is readable in DONE alone (R195). -/
theorem State.not_textReadable_busy (n : Nat) (h : s.busy = true) : ¬ s.textReadable n = true := by
  intro hread
  obtain ⟨hseq, -⟩ := State.textReadable_iff.1 hread
  rw [State.busy, hseq] at h
  cases h

end Busy

/-- Settles O23: STATUS by its layout, every result register and TEXT by one draw. -/
theorem resultReadsWhileBusyAreDraws : Obligations.ResultReadsWhileBusyAreDraws := by
  intro s hbusy
  refine ⟨⟨s.statusWhileBusy s.draws, execRdStatus_busy hbusy, statusLayout_state .., statusLayout_busy ..,
    statusLayout_reason .., statusLayout_dir .., statusLayout_validField .., statusLayout_trk ..,
    statusLayout_reserved ..⟩, ?_, rfl, rfl⟩
  rintro i (rfl | rfl | rfl | rfl | rfl | ⟨n, rfl, hn⟩)
  · exact readResult_busy s.length hbusy
  · exact readResult_busy s.erridx hbusy
  · exact readResult_busy s.sspos hbusy
  · exact readResult_busy s.endpos hbusy
  · exact readResult_busy s.lrc hbusy
  · exact execRdText_draws hn (State.not_textReadable_busy n.toNat hbusy)

/-- Settles O25: each of the five writes tests BUSY first. -/
theorem writesWhileBusyAreRefused : Obligations.WritesWhileBusyAreRefused := by
  rintro s i hbusy (rfl | rfl | rfl | ⟨n, rfl⟩ | ⟨a, b, rfl⟩)
  · exact startDecode_busy .t1 hbusy
  · exact startDecode_busy .t2 hbusy
  · exact startDecode_busy .t3 hbusy
  · exact execWrCount_refused (.inl hbusy)
  · exact execWrRaw_refused b (.inl hbusy)

/-- Settles O34: the reset turn's step, with the turn used up. -/
theorem resetTurnClearsTheBlock : Obligations.ResetTurnClearsTheBlock := by
  intro s rest hschedule
  have hturn : s.nextTurn = some .reset := by rw [State.nextTurn, hschedule]
  rw [step_reset hturn, State.popTurn_eq (by rw [hschedule, List.tail_cons])]
  rfl

end Sys2Proof.Machine

/-! PROOFS. The refusal mark (70_reset_and_hazards.md R235): a transaction is refused and nothing else, or it leaves the mark as it
was; a stage and a reset leave it too. -/

namespace Sys2Proof.Machine

section Mark
variable {s t : State} {i : Instr}

/-- Refused and nothing else, or the mark as it was. -/
def RefusesOrKeepsMark (s t : State) : Prop := t = s.refuse ∨ t.refused = s.refused

theorem ReadOutcome.refusesOrKeepsMark (h : ReadOutcome s (.next t)) : RefusesOrKeepsMark s t := by
  rcases h with h | ⟨v, n, h⟩ <;> cases h
  · exact .inl rfl
  · exact .inr rfl

theorem startDecode_refusesOrKeepsMark {k : TrackCode} (h : s.startDecode k = .next t) : RefusesOrKeepsMark s t := by
  rcases State.startDecode_eq k s with ⟨_, e⟩ | ⟨_, e⟩ <;> rw [e] at h <;> cases h
  · exact .inr rfl
  · exact .inl rfl

theorem execWrCount_refusesOrKeepsMark {n : Reg} (h : execWrCount n s = .next t) : RefusesOrKeepsMark s t := by
  by_cases hr : s.busy = true ∨ s.cap < n.toNat
  · rw [execWrCount_refused hr] at h
    cases h
    exact .inl rfl
  · rw [execWrCount_stored hr] at h
    cases h
    exact .inr rfl

theorem execWrRaw_refusesOrKeepsMark {a : Reg} {b : Bool} (h : execWrRaw a b s = .next t) : RefusesOrKeepsMark s t := by
  by_cases hr : s.busy = true ∨ s.cap ≤ a.toNat
  · rw [execWrRaw_refused b hr] at h
    cases h
    exact .inl rfl
  · rw [execWrRaw_stored b hr] at h
    cases h
    exact .inr rfl

/-- Every host transaction is refused and nothing else, or leaves the mark as it was. -/
theorem exec_refusesOrKeepsMark (hi : hostInstr i = true) (h : exec i s = .next t) : RefusesOrKeepsMark s t := by
  by_cases hr : readInstr i = true
  · have hread := exec_readOutcome s hr
    rw [h] at hread
    exact hread.refusesOrKeepsMark
  cases i with
  | decodeT1 => exact startDecode_refusesOrKeepsMark (k := .t1) h
  | decodeT2 => exact startDecode_refusesOrKeepsMark (k := .t2) h
  | decodeT3 => exact startDecode_refusesOrKeepsMark (k := .t3) h
  | wrCount n => exact execWrCount_refusesOrKeepsMark h
  | wrRaw a b => exact execWrRaw_refusesOrKeepsMark h
  | rdRaw | rdText => simp [readInstr, encode] at hr
  | rdCmd | rdStatus | rdCount | rdLength | rdErridx | rdSspos | rdEndpos | rdLrc => exact absurd (by decide) hr
  | detect | normloc | decodeChars | lrcCheck | publish => exact absurd hi (by decide)

/-! ## Polls -/

theorem execRdStatus_refused (h : execRdStatus s = .next t) : t.refused = s.refused := by
  cases hbusy : s.busy with
  | true => rw [execRdStatus_busy hbusy] at h; cases h; rfl
  | false => rw [execRdStatus_not_busy hbusy] at h; cases h; rfl

/-- The reads of WAIT and APPEND are never refused (30_encoding.md R95), and what EXT does with their values leaves the mark. -/
theorem poll_refusesOrKeepsMark {op : HostOp} (hd : decodeHt35 op.word = .ok i) (h : exec i s = .next t) :
    RefusesOrKeepsMark s (t.resume op) := by
  cases op with
  | xfer w => exact exec_refusesOrKeepsMark (hostInstr_of_decodeHt35 hd) h
  | wait =>
    obtain rfl : Instr.rdStatus = i :=
      Except.ok.inj ((show decodeHt35 (HostOp.word .wait) = .ok .rdStatus by decide).symm.trans hd)
    exact .inr ((State.resume_refused _ t).trans (execRdStatus_refused h))
  | append b =>
    obtain rfl : Instr.rdCount = i :=
      Except.ok.inj ((show decodeHt35 (ht35Word 0 0 2 0) = .ok .rdCount by decide).symm.trans hd)
    cases h
    exact .inr (State.resume_refused _ (s.returnRead s.count))

/-! ## The step -/

/-- A step that touches the mark refuses the transaction it uses up; every other step leaves the mark as it was. -/
theorem step_refusesOrKeepsMark (h : step s = .next t) : t = s.popTurn.popProgram.refuse ∨ t.refused = s.refused := by
  rcases step_cases h with ⟨rfl, _⟩ | ⟨rfl, _⟩ | ⟨rfl, _⟩ | ⟨_, i, hd, hexec⟩ |
    ⟨_, op, ops, _, ⟨rfl, _⟩ | ⟨i, hd, hexec | ⟨u, hexec, rfl⟩⟩⟩
  · exact .inr rfl
  · exact .inr rfl
  · exact .inr rfl
  · exact .inr (congrArg State.refused (exec_stage_outside (hostInstr_of_decodeStage hd) hexec) :)
  · exact .inl rfl
  · exact exec_refusesOrKeepsMark (hostInstr_of_decodeHt35 hd) hexec
  · exact poll_refusesOrKeepsMark hd hexec

end Mark

/-- Settles O57: a step refuses the transaction it uses up and changes nothing else, or it leaves the mark as it was. -/
theorem refusalMarkIsSetAloneAndNeverCleared : Obligations.RefusalMarkIsSetAloneAndNeverCleared := by
  intro s t h
  rcases step_refusesOrKeepsMark h with rfl | hkept
  · exact ⟨fun _ => rfl, fun _ _ => rfl⟩
  · exact ⟨hkept.trans, fun hs ht => absurd (hs.symm.trans (hkept.symm.trans ht)) Bool.false_ne_true⟩

end Sys2Proof.Machine

/-! PROOFS. The bounds on the work of the stages and of a decode call (70_reset_and_hazards.md R239). -/

namespace Sys2Proof.Machine

section Work
variable (s : State) (f : Format)

/-- DETECT searches at most twice (41_direction_detector.md R110). -/
theorem State.detectCompares_le : s.detectCompares f ≤ 2 * (s.count.toNat + 1 - f.width) := by
  have hfwd := locateCompares_le s.copyRaw.workBit s.count.toNat f
  have hback := locateCompares_le s.copyRaw.copyRawReversed.workBit s.count.toNat f
  unfold State.detectCompares
  split <;> omega

/-- DETECT copies the valid bits at most twice (41_direction_detector.md R111, R112). -/
theorem State.detectCopies_le : s.detectCopies f ≤ 2 * s.count.toNat := by
  have hfwd := s.length_capturedBits
  have hback : s.copyRaw.reversedBits.length = s.count.toNat := s.copyRaw.length_reversedBits
  unfold State.detectCopies
  split <;> omega

theorem State.normlocCompares_le : s.normlocCompares f ≤ s.count.toNat + 1 - f.width := locateCompares_le _ _ f

/-- DECODE_CHARS ends at an index before which all frames lie within COUNT (44_character_framer.md R152). -/
theorem State.framesExamined_le : s.framesExamined f ≤ (s.count.toNat - s.sspos.toNat) / f.width + 1 := by
  obtain ⟨j, hpassed, hend⟩ := s.frameChars_end f
  rw [hend.framesExamined]
  exact Nat.succ_le_succ (State.index_le_of_passed hpassed)

end Work

/-- Settles O59: the bounds of each stage, and over a call their sums at COUNT <= CAP. -/
theorem stageWorkIsBounded : Obligations.StageWorkIsBounded := by
  intro s f
  refine ⟨s.detectCompares_le f, s.detectCopies_le f, s.normlocCompares_le f, s.normlocCopies_eq,
    s.framesExamined_le f, s.lrcFrames_le f, fun t u v ht hu hcap => ⟨?_, ?_, ?_⟩⟩
  · have hdetect := s.detectCompares_le f
    have hnormloc := t.normlocCompares_le f
    have hwidth := f.width_pos
    rw [ht] at hnormloc
    omega
  · have hdetect := s.detectCopies_le f
    have hnormloc := t.normlocCopies_eq
    rw [ht] at hnormloc
    omega
  · have hchars := u.framesExamined_le f
    have hlrc := v.lrcFrames_le f
    have hdiv : (u.count.toNat - u.sspos.toNat) / f.width ≤ s.cap / f.width :=
      Nat.div_le_div_right ((Nat.sub_le _ _).trans (hu ▸ hcap))
    omega

end Sys2Proof.Machine

/-! PROOFS. The source's call on a clean track and on a reversed swipe (95_test_vectors.md V-PROP-1, V-PROP-2). -/

namespace Sys2Proof.Machine

/-! ## The reversed swipe -/

/-- The direction enters the source's result as it is given, and nothing else of the result. -/
theorem sourceResult_setDirection (f : Format) (d d' : ReadDirection) (bs : List Bool) :
    sourceResult f d' bs = { sourceResult f d bs with direction := d' } := by
  unfold sourceResult
  cases sourceFrames f bs <;> rfl

/-- Settles O49: both orientations find the same sequence, the reversal by reversing again. -/
theorem reversedSwipeDecodesTheSameBackward : Obligations.ReversedSwipeDecodesTheSameBackward := by
  intro f bits hfwd hback
  obtain ⟨bs, hbs⟩ := Option.ne_none_iff_exists'.1 hfwd
  rw [sourceDecode, hback, List.reverse_reverse, sourceDecode, hbs]
  exact sourceResult_setDirection f .forward .backward bs

/-! ## The start sentinel after 0 bits (43_sentinel_locator.md R131) -/

section CleanTrack
variable {f : Format} {v : Nat}

/-- The bits of a number that fits in n bits are worth the number. -/
theorem bitsValue_bitsOf_testBit {n : Nat} (hv : v < 2 ^ n) : bitsValue (bitsOf v.testBit n) = v := by
  induction n generalizing v with
  | zero =>
    rw [Nat.pow_zero, Nat.lt_one_iff] at hv
    rw [hv]
    rfl
  | succ n ih =>
    have htail : (fun i => v.testBit (i + 1)) = (v / 2).testBit := funext fun i => Nat.testBit_succ v i
    rw [bitsOf_succ_cons, bitsValue, htail, ih (by omega), Nat.toNat_testBit, Nat.pow_zero, Nat.div_one]
    omega

/-- The data bits of a character are its value's. -/
theorem bitsValue_take_sourceChar (hv : v < 2 ^ f.dataBits) (rest : List Bool) :
    bitsValue ((sourceChar f v ++ rest).take f.dataBits) = v := by
  have hlen : (bitsOf v.testBit f.dataBits).length = f.dataBits := length_bitsOf _ _
  have hbits : (sourceChar f v ++ rest).take f.dataBits = bitsOf v.testBit f.dataBits := by
    rw [sourceChar, List.append_assoc]
    exact List.take_left' hlen
  rw [hbits, bitsValue_bitsOf_testBit hv]

theorem take_sourceChar_append (v : Nat) (rest : List Bool) :
    (sourceChar f v ++ rest).take f.width = sourceChar f v := by
  rw [← length_sourceChar f v, List.take_left]

theorem drop_sourceChar_append (v : Nat) (rest : List Bool) :
    (sourceChar f v ++ rest).drop f.width = rest := by
  rw [← length_sourceChar f v, List.drop_left]

/-- The sentinel's least significant bit is 1, so no window that begins with a 0 bit matches. -/
theorem sourceLocate_cons_false (bs : List Bool) : sourceLocate f (false :: bs) = sourceLocate f bs := by
  have hne : bitsValue ((false :: bs).take f.dataBits) ≠ f.ss.toNat := by
    obtain ⟨d, hd⟩ : ∃ d, f.dataBits = d + 1 := ⟨f.dataBits - 1, by cases f <;> rfl⟩
    have hodd : f.ss.toNat % 2 = 1 := by cases f <;> rfl
    rw [hd, List.take_succ_cons, bitsValue, Bool.toNat_false]
    omega
  rw [sourceLocate, if_neg fun h => hne h.2]

theorem sourceLocate_replicate_append (m : Nat) (bs : List Bool) :
    sourceLocate f (List.replicate m false ++ bs) = sourceLocate f bs := by
  induction m with
  | zero => rfl
  | succ m ih => rw [List.replicate_succ, List.cons_append, sourceLocate_cons_false, ih]

theorem sourceLocate_of_match {bs : List Bool} (hlen : f.width ≤ bs.length)
    (hss : bitsValue (bs.take f.dataBits) = f.ss.toNat) : sourceLocate f bs = some bs := by
  cases bs with
  | nil => exact absurd hlen (Nat.not_le.2 f.width_pos)
  | cons b bs => rw [sourceLocate, if_pos ⟨hlen, hss⟩]

/-! ## The characters (44_character_framer.md R144 to R146) -/

/-- One character in front: its parity is odd and its value is what it carries. -/
theorem sourceChars_sourceChar_append (fuel : Nat) (hv : v < 2 ^ f.dataBits) (rest : List Bool) :
    sourceChars f (fuel + 1) (sourceChar f v ++ rest) =
      if v = f.es.toNat then .text [] rest else (sourceChars f fuel rest).push v := by
  have hlen : ¬ (sourceChar f v ++ rest).length < f.width := by rw [List.length_append, length_sourceChar]; omega
  rw [sourceChars, if_neg hlen, take_sourceChar_append, bitsOdd_sourceChar, bitsValue_take_sourceChar hv,
    drop_sourceChar_append]
  rfl

theorem Format.es_lt (f : Format) : f.es.toNat < 2 ^ f.dataBits := by cases f <;> decide
theorem Format.ss_lt (f : Format) : f.ss.toNat < 2 ^ f.dataBits := by cases f <;> decide

/-- The data characters up to the end sentinel, with a pass of the loop to spare for it. -/
theorem sourceChars_clean {values : List Nat} (hvalues : ∀ v ∈ values, v < 2 ^ f.dataBits ∧ v ≠ f.es.toNat)
    {fuel : Nat} (hfuel : values.length < fuel) (rest : List Bool) :
    sourceChars f fuel (values.flatMap (sourceChar f) ++ (sourceChar f f.es.toNat ++ rest)) = .text values rest := by
  obtain ⟨fuel, rfl⟩ : ∃ k, fuel = k + 1 := ⟨fuel - 1, by omega⟩
  induction values generalizing fuel with
  | nil => exact (sourceChars_sourceChar_append fuel f.es_lt rest).trans (if_pos rfl)
  | cons v values ih =>
    obtain ⟨⟨hv, hes⟩, hvalues⟩ := List.forall_mem_cons.1 hvalues
    rw [List.length_cons] at hfuel
    obtain ⟨fuel, rfl⟩ : ∃ k, fuel = k + 1 := ⟨fuel - 1, by omega⟩
    rw [List.flatMap_cons, List.append_assoc, sourceChars_sourceChar_append _ hv, if_neg hes,
      ih hvalues fuel (by omega)]
    rfl

theorem length_le_length_flatMap_sourceChar (f : Format) (values : List Nat) :
    values.length ≤ (values.flatMap (sourceChar f)).length := by
  rw [List.length_flatMap, List.map_congr_left fun v _ => length_sourceChar f v, List.map_const', List.sum_replicate]
  exact Nat.le_mul_of_pos_right _ f.width_pos

/-- The track's parts, read from the left. -/
theorem sourceTrack_append (f : Format) (values : List Nat) (trailing : List Bool) :
    sourceTrack f values ++ trailing =
      sourceChar f f.ss.toNat ++
        (values.flatMap (sourceChar f) ++ (sourceChar f f.es.toNat ++ (sourceLrc f values ++ trailing))) := by
  simp only [sourceTrack, List.append_assoc]

/-- The whole track from the start sentinel on (R145). -/
theorem sourceFrames_sourceTrack {values : List Nat} (hvalues : ∀ v ∈ values, v < 2 ^ f.dataBits ∧ v ≠ f.es.toNat)
    (trailing : List Bool) :
    sourceFrames f (sourceTrack f values ++ trailing) = .text values (sourceLrc f values ++ trailing) := by
  have hfuel : values.length < (sourceTrack f values ++ trailing).length := by
    have hdata := length_le_length_flatMap_sourceChar f values
    have hwidth := f.width_pos
    simp only [sourceTrack, List.length_append, length_sourceChar]
    omega
  rw [sourceTrack_append] at hfuel ⊢
  rw [sourceFrames, take_sourceChar_append, bitsOdd_sourceChar, drop_sourceChar_append]
  exact sourceChars_clean hvalues hfuel _

/-- The start sentinel of a track is found where the track begins, after any number of 0 bits. -/
theorem sourceLocate_sourceTrack (f : Format) (values : List Nat) (m : Nat) (trailing : List Bool) :
    sourceLocate f (List.replicate m false ++ sourceTrack f values ++ trailing) = some (sourceTrack f values ++ trailing) := by
  rw [List.append_assoc, sourceLocate_replicate_append, sourceTrack_append]
  refine sourceLocate_of_match ?_ (bitsValue_take_sourceChar f.ss_lt _)
  rw [List.length_append, length_sourceChar]
  exact Nat.le_add_right _ _

/-- The track's LRC character is the character of the XOR of its data values (45_lrc_engine.md R160, R161). -/
theorem take_sourceLrc_append (f : Format) (values : List Nat) (trailing : List Bool) :
    (sourceLrc f values ++ trailing).take f.width = sourceLrc f values :=
  take_sourceChar_append (values.foldl (· ^^^ ·) 0) trailing

end CleanTrack

/-- Settles O48: the search ends at the track, whose frames are its data values, and the LRC character matches. -/
theorem cleanTrackDecodesToItsText : Obligations.CleanTrackDecodesToItsText := by
  intro f values m trailing hvalues
  rw [sourceDecode, sourceLocate_sourceTrack]
  simp [sourceResult, sourceFrames_sourceTrack hvalues, take_sourceLrc_append]

end Sys2Proof.Machine
